-- ==== Sys2Proof/Word.lean ====
section
/-! DEFINITION. The word types of the block: an octet of the frame buffer and an 11-bit channel value. -/

namespace Sys2Proof

/-- One octet, the addressable unit of the frame buffer (20_memory.md R50). -/
abbrev Byte := BitVec 8

/-- One channel value, 11 bits, unsigned (10_state.md R24, R25). -/
abbrev Chan := BitVec 11

end Sys2Proof
end

