-- ==== Sys2Proof/Config.lean ====
section
/-! DEFINITION. What is fixed for one block: the constants of the protocol (00_scope.md R8) and the parameters the
spec leaves open (00_scope.md R10, 40_commands.md R107). -/

namespace Sys2Proof

/-- `FRAME_LEN`: octets in a frame (00_scope.md R8). -/
def Config.frameLen : Nat := 25

/-- `HEADER`: the value of octet 0 (00_scope.md R8). -/
def Config.header : Byte := 0x0F

/-- `END`: the value of octet 24 (00_scope.md R8). -/
def Config.endByte : Byte := 0x00

/-- `CH_BITS`: bits per channel (00_scope.md R8). -/
def Config.chBits : Nat := 11

/-- `CH_MAX`: the greatest channel count (00_scope.md R8). -/
def Config.chMax : Nat := 16

/-- `CH_MASK` (00_scope.md R8). -/
def Config.chMask : Nat := 0x7FF

/-- `FLAGS_OFF`: the offset of the flags octet (00_scope.md R8). -/
def Config.flagsOff : Nat := 23

/-- `FS_MASK`: failsafe within octet 23 (00_scope.md R8). -/
def Config.fsMask : Byte := 0x10

/-- `FL_MASK`: frame_lost within octet 23 (00_scope.md R8). -/
def Config.flMask : Byte := 0x20

/-- `CH18_MASK`: the LOWER of the two auxiliary masks is channel 18 (00_scope.md R8; 90_conflicts.md C8). -/
def Config.ch18Mask : Byte := 0x40

/-- `CH17_MASK` (00_scope.md R8; 90_conflicts.md C8). -/
def Config.ch17Mask : Byte := 0x80

/-- The value an omitted CONFIG operand stands for (40_commands.md R101). -/
def Config.defaultChans : Int := 16

/-- The host's `enabled` where its configuration omits it (44_host_frame_reader.md R171). -/
def Config.defaultEnabled : Bool := true

/-- The host's `RETRY` where its configuration omits it (44_host_frame_reader.md R171). -/
def Config.defaultRetry : Bool := true

/-- The host's `TIMEOUT`, in time units, where its configuration omits it (44_host_frame_reader.md R171). -/
def Config.defaultTimeout : Nat := 1

/-- The three conforming forms of DECODE (40_commands.md R107, 92_eei_decisions.md D1, D14): one atomic step; the
document's accumulator, one phase a step; sixteen fixed extractors, one phase a step. -/
inductive Form where
  | transaction
  | accumulator
  | extractors
  deriving DecidableEq, Repr

/-- The parameters a model takes (00_scope.md R10), and the form of the implementation (40_commands.md R107). -/
structure Params where
  /-- `CFG_W`: bits of the two's-complement port that carries the CONFIG operand. -/
  cfgW : Nat
  /-- `LEN_MAX`: the greatest frame length that can be presented. -/
  lenMax : Nat
  /-- Which conforming form of DECODE runs (DESIGN CHOICE, log entry 1). -/
  form : Form
  deriving DecidableEq, Repr

/-- The defaults of 00_scope.md R10, and the atomic transaction of 92_eei_decisions.md D1. -/
def Params.default : Params := { cfgW := 8, lenMax := 255, form := .transaction }

/-- What 00_scope.md R10 and 92_eei_decisions.md D3 ask of the open parameters: a frame of 25 octets can be presented,
and so can the operands 17 and -1. -/
abbrev Params.valid (p : Params) : Prop := 25 ≤ p.lenMax ∧ 6 ≤ p.cfgW

end Sys2Proof
end

