-- ==== Sys2Proof/Syntax.lean ====
section
/-! DEFINITION. The instructions: one constructor per row of spec/opcode_table.json, the two commands with their operands
and the phases of DECODE, and the ports a command is presented on (10_state.md R31). -/

namespace Sys2Proof

/-- The 29 rows of spec/opcode_table.json. -/
inductive Instr where
  /-- CONFIG with its operand `cfg_n`, a signed integer; `none` is the omitted operand (30_encoding.md R76, 40 R101). -/
  | config (n : Option Int)
  /-- DECODE with its operands `frame[0 .. len-1]` and `len`, the list's length (40_commands.md R103, 10_state.md R30). -/
  | decode (frame : List Byte)
  /-- CHK.LEN (41_validate.md R120). -/
  | chkLen
  /-- CHK.HDR (41_validate.md R121). -/
  | chkHdr
  /-- CHK.END (41_validate.md R122). -/
  | chkEnd
  /-- ASM (42_unpack.md R130). -/
  | asm
  /-- DROPHDR (42_unpack.md R131). -/
  | dropHdr
  /-- EXT, the general form at the current IDX (42_unpack.md R132). -/
  | ext
  /-- EXT.CH0 (42_unpack.md R134). -/
  | extCh0
  /-- EXT.CH1 (42_unpack.md R135). -/
  | extCh1
  /-- EXT.CH2 (42_unpack.md R136). -/
  | extCh2
  /-- EXT.CH3 (42_unpack.md R137). -/
  | extCh3
  /-- EXT.CH4 (42_unpack.md R138). -/
  | extCh4
  /-- EXT.CH5 (42_unpack.md R139). -/
  | extCh5
  /-- EXT.CH6 (42_unpack.md R140). -/
  | extCh6
  /-- EXT.CH7 (42_unpack.md R141). -/
  | extCh7
  /-- EXT.CH8 (42_unpack.md R142). -/
  | extCh8
  /-- EXT.CH9 (42_unpack.md R143). -/
  | extCh9
  /-- EXT.CH10 (42_unpack.md R144). -/
  | extCh10
  /-- EXT.CH11 (42_unpack.md R145). -/
  | extCh11
  /-- EXT.CH12 (42_unpack.md R146). -/
  | extCh12
  /-- EXT.CH13 (42_unpack.md R147). -/
  | extCh13
  /-- EXT.CH14 (42_unpack.md R148). -/
  | extCh14
  /-- EXT.CH15 (42_unpack.md R149). -/
  | extCh15
  /-- FLG.FS (43_flags.md R160). -/
  | flgFs
  /-- FLG.FL (43_flags.md R161). -/
  | flgFl
  /-- FLG.CH18 (43_flags.md R162). -/
  | flgCh18
  /-- FLG.CH17 (43_flags.md R163). -/
  | flgCh17
  /-- EMIT (43_flags.md R166). -/
  | emit
  deriving DecidableEq, Repr

/-- The input ports of one presented command (10_state.md R31): `cmd` (0 = CONFIG, 1 = DECODE), the raw bits on `cfg_n`
as a natural (`none`: operand absent), and the octets on `frame_byte`, whose number is `frame_len`. -/
structure Ports where
  cmd   : BitVec 1
  cfgN  : Option Nat
  frame : List Byte
  deriving DecidableEq, Repr

end Sys2Proof
end

