-- ==== Sys2Proof/WellFormed.lean ====
section
/-! DEFINITION. Which instructions can be presented on the ports (93_implementation_defined.md U11): the CONFIG operand
fits `CFG_W` bits, the frame is no longer than `LEN_MAX`. The MEANING of an instruction does not ask for either. -/

namespace Sys2Proof

/-- `n` fits the `w`-bit two's-complement port (30_encoding.md R76). -/
abbrev fitsSigned (w : Nat) (n : Int) : Prop := -(2 ^ w : Int) ≤ 2 * n ∧ 2 * n < 2 ^ w

/-- The check, one case per constructor: only the operands of the two commands are bounded. -/
def wellFormed (p : Params) : Instr → Bool
  | .config none     => true
  | .config (some n) => decide (fitsSigned p.cfgW n)
  | .decode frame    => decide (frame.length ≤ p.lenMax)
  | .chkLen | .chkHdr | .chkEnd | .asm | .dropHdr | .ext => true
  | .extCh0 | .extCh1 | .extCh2 | .extCh3 | .extCh4 | .extCh5 | .extCh6 | .extCh7 => true
  | .extCh8 | .extCh9 | .extCh10 | .extCh11 | .extCh12 | .extCh13 | .extCh14 | .extCh15 => true
  | .flgFs | .flgFl | .flgCh18 | .flgCh17 | .emit => true

/-- The instruction can be presented under the parameters `p` (00_scope.md R10, 93_implementation_defined.md U11). -/
abbrev WellFormed (p : Params) (i : Instr) : Prop := wellFormed p i = true

end Sys2Proof
end

