-- ==== Sys2Proof/Decode.lean ====
section
/-! DEFINITION. Decoding a presented command (30_encoding.md R79), the encoder, the phases a DECODE is made of
(40_commands.md R103, R107), the integer of a frame (00_scope.md R13) and the reading of an opcode-table word. -/

namespace Sys2Proof

/-- Why a port value is no instruction (93_implementation_defined.md U11: it cannot be presented). -/
inductive DecodeReject where
  /-- the bits on `cfg_n` do not fit `CFG_W` -/
  | operandTooWide
  /-- `frame_len` is above `LEN_MAX` -/
  | frameTooLong
  deriving DecidableEq, Repr

/-- The decoder's answer: an instruction, or a rejection by name. -/
inductive Decoded where
  | instr (i : Instr)
  | reject (r : DecodeReject)
  deriving DecidableEq, Repr

/-- The signed value of `w` raw bits, two's complement (30_encoding.md R76). -/
def signedOf (w raw : Nat) : Int := (BitVec.ofNat w raw).toInt

/-- The `w` raw bits of a signed value (30_encoding.md R76). -/
def unsignedOf (w : Nat) (n : Int) : Nat := (BitVec.ofInt w n).toNat

/-- The host names the command on `cmd`: 0 is CONFIG with its operand on `cfg_n`, 1 is DECODE with the octets on the
frame ports (30_encoding.md R79, 10_state.md R31). The other command's ports are not looked at. -/
def decodePorts (p : Params) (c : Ports) : Decoded :=
  if c.cmd = 0 then
    match c.cfgN with
    | none     => .instr (.config none)
    | some raw => if raw < 2 ^ p.cfgW then .instr (.config (some (signedOf p.cfgW raw))) else .reject .operandTooWide
  else
    if c.frame.length ≤ p.lenMax then .instr (.decode c.frame) else .reject .frameTooLong

/-- The ports that present a command. A phase of DECODE has no port encoding: it is selected by its place in the DECODE
(40_commands.md R103), see `phasesOf`. -/
def encodePorts (p : Params) : Instr → Option Ports
  | .config none     => some { cmd := 0, cfgN := none, frame := [] }
  | .config (some n) => some { cmd := 0, cfgN := some (unsignedOf p.cfgW n), frame := [] }
  | .decode frame    => some { cmd := 1, cfgN := none, frame := frame }
  | .chkLen | .chkHdr | .chkEnd | .asm | .dropHdr | .ext => none
  | .extCh0 | .extCh1 | .extCh2 | .extCh3 | .extCh4 | .extCh5 | .extCh6 | .extCh7 => none
  | .extCh8 | .extCh9 | .extCh10 | .extCh11 | .extCh12 | .extCh13 | .extCh14 | .extCh15 => none
  | .flgFs | .flgFl | .flgCh18 | .flgCh17 | .emit => none

/-- The three checks, first in every form (41_validate.md R123). -/
def checkPhases : List Instr := [.chkLen, .chkHdr, .chkEnd]

/-- The four flag phases and EMIT, last in every form (40_commands.md R103). -/
def flagPhases : List Instr := [.flgFs, .flgFl, .flgCh18, .flgCh17, .emit]

/-- The sixteen fixed extractors in the order of their channels (42_unpack.md R134 to R149). -/
def fixedExtractors : List Instr :=
  [.extCh0, .extCh1, .extCh2, .extCh3, .extCh4, .extCh5, .extCh6, .extCh7,
   .extCh8, .extCh9, .extCh10, .extCh11, .extCh12, .extCh13, .extCh14, .extCh15]

/-- The phases of one DECODE under the channel count `n`, in the order of 40_commands.md R103: the accumulator form
repeats EXT `n` times (42_unpack.md R133), the form with fixed extractors wires up all sixteen (40_commands.md R107). The
atomic transaction is the accumulator form run in one step. -/
def phasesOf (form : Form) (n : Nat) : List Instr :=
  match form with
  | .transaction | .accumulator => checkPhases ++ [.asm, .dropHdr] ++ List.replicate n .ext ++ flagPhases
  | .extractors => checkPhases ++ fixedExtractors ++ flagPhases

/-- The little-endian integer `F` of a sequence of octets (00_scope.md R13). -/
def frameInt : List Byte → Nat
  | []      => 0
  | b :: bs => b.toNat + 256 * frameInt bs

/-- The `k` octets of the little-endian integer `w`; octet `j` is `(w >> (8*j)) & 0xFF` (30_encoding.md R92). -/
def octetsOf : Nat → Nat → List Byte
  | 0,     _ => []
  | k + 1, w => BitVec.ofNat 8 w :: octetsOf k (w / 256)

/-- The ports that present an opcode-table word: the one row of 8 bits is CONFIG, every wider row is a frame, of 25 octets
where the table gives fewer bits (log entries 10, 13). -/
def tablePorts (nbits w : Nat) : Ports :=
  if nbits ≤ 8 then { cmd := 0, cfgN := some (w % 256), frame := [] }
  else { cmd := 1, cfgN := none, frame := octetsOf (max Config.frameLen ((nbits + 7) / 8)) w }

/-- What the decoder reads from an opcode-table word under the default parameters. -/
def decodeTableWord (nbits w : Nat) : Option Instr :=
  match decodePorts Params.default (tablePorts nbits w) with
  | .instr i  => some i
  | .reject _ => none

end Sys2Proof
end

