-- ==== Sys2Proof/Machine/State.lean ====
section
/-! DEFINITION. The state of the block, of one DECODE in progress, of its ports and of the host's FrameReader, as plain
data (10_state.md, 20_memory.md R50, 44_host_frame_reader.md R171 to R173), the reasons a step can stop, and reset. -/

namespace Sys2Proof.Machine

open Sys2Proof

/-- `CFG`, the construction status (10_state.md R22). -/
inductive CfgStatus where
  | unconfigured
  | ready
  | cfgFault
  deriving DecidableEq, Repr

/-- The frame buffer: the octets presented, by rising offset (20_memory.md R50). An offset that is not listed does not
exist, so an unlisted address has no value (log entry 6). -/
abbrev Memory := List Host.Cell

/-- The DecodedFrame record (10_state.md R25): `channels` is a list of exactly `NCH` values. -/
structure DecodedFrame where
  channels  : List Chan
  failsafe  : Bool
  frameLost : Bool
  ch17      : Bool
  ch18      : Bool
  deriving DecidableEq, Repr

/-- The four errors (60_exceptions.md R200, R206: one inductive, the numbers are a port encoding only). -/
inductive BlockError where
  /-- 60_exceptions.md R201 -/
  | wrongLength (expected actual : Nat)
  /-- 60_exceptions.md R202 -/
  | wrongHeader (expected actual : Nat)
  /-- 60_exceptions.md R203 -/
  | wrongEndByte (expected actual : Nat)
  /-- 60_exceptions.md R205 -/
  | configError (lo hi actual : Int)
  deriving DecidableEq, Repr

/-- What a completed command answers (70_reset_and_hazards.md R240): a CONFIG accepted, a DecodedFrame, or an error;
one arm at a time (10_state.md R27). -/
inductive Result where
  | accepted
  | ok (d : DecodedFrame)
  | err (e : BlockError)
  deriving DecidableEq, Repr

/-- Which checks a DECODE in progress has passed (41_validate.md R123). -/
inductive Stage where
  /-- presented, no check yet -/
  | opened
  /-- CHK.LEN passed -/
  | lenOk
  /-- CHK.HDR passed as well -/
  | hdrOk
  /-- all three passed -/
  | checked
  deriving DecidableEq, Repr

/-- The transient values of one DECODE (10_state.md R29). `none` is the spec's "no value" (00_scope.md R14, 10 R27). -/
structure Txn where
  stage     : Stage
  len       : Nat
  f         : Option (BitVec 200)
  acc       : Option (BitVec 192)
  idx       : Option (BitVec 5)
  ch        : Vector (Option Chan) 16
  failsafe  : Option Bool
  frameLost : Option Bool
  ch18      : Option Bool
  ch17      : Option Bool
  /-- the phases still to run, in order (40_commands.md R103); the model's own field (log entry 1) -/
  todo      : List Instr
  deriving DecidableEq, Repr

/-- `PARITY` of the host's transport (44_host_frame_reader.md R176). -/
inductive Parity where
  | even
  | none
  deriving DecidableEq, Repr

/-- The parameters an OPEN is made with (44_host_frame_reader.md R172, R176). -/
structure OpenParams where
  address  : String
  baud     : Nat
  dataBits : Nat
  parity   : Parity
  stopBits : Nat
  timeout  : Nat
  deriving DecidableEq, Repr

/-- What the host logs at error severity (44_host_frame_reader.md R178, R179). -/
inductive LogCause where
  | decodeFailure (e : BlockError)
  | transportError
  deriving DecidableEq, Repr

/-- The host's side effects, all outside the block (44_host_frame_reader.md R181). -/
inductive Effect where
  | opened (p : OpenParams)
  | read (octets : Nat)
  | dispatched (d : DecodedFrame)
  /-- a warning naming the address and the timeout (R174) -/
  | logWarning (address : String) (timeout : Nat)
  | logError (c : LogCause)
  | closed
  /-- a sleep of so many time units (R183) -/
  | slept (units : Nat)
  deriving DecidableEq, Repr

/-- Why a reader has stopped (44_host_frame_reader.md R185, R187). -/
inductive StopReason where
  /-- `enabled` is false, or a session failed with RETRY false (R187) -/
  | normal
  /-- CONFIG answered a ConfigError (R185) -/
  | configError
  /-- the sink failed (R177, R182) -/
  | sinkFailure
  /-- the instance was reset while the reader waited for its result (log entry 14) -/
  | decoderLost
  deriving DecidableEq, Repr

/-- Where the reader's two-level state machine stands (44_host_frame_reader.md R172, R173, R188 (c)). -/
inductive ReaderPhase where
  /-- no reader is attached to the block -/
  | absent
  /-- CONFIG has been presented -/
  | constructing
  /-- top of the outer loop; `first` as in R172 -/
  | outerTop (first : Bool)
  /-- OPEN has been issued -/
  | opening
  /-- top of the inner loop -/
  | innerTop
  /-- READ of 25 octets has been issued -/
  | reading
  /-- the octets have been presented with DECODE -/
  | decoding
  /-- the frame has been handed to the sink -/
  | dispatching
  /-- the inner loop has been left, or OPEN failed -/
  | closing
  /-- the backoff sleep (R183) -/
  | sleeping
  | stopped (why : StopReason)
  deriving DecidableEq, Repr

/-- The FrameReader: its configuration (44_host_frame_reader.md R171), where it stands, and its side effects so far,
oldest first. Durations are whole numbers of the open unit `T_UNIT` (92_eei_decisions.md D20; DESIGN CHOICE, log entry
32). -/
structure Reader where
  address     : String
  nChans      : Option Int
  enabled     : Bool
  retry       : Bool
  timeout     : Nat
  parity      : Parity
  phase       : ReaderPhase
  sessionOpen : Bool
  effects     : List Effect
  deriving DecidableEq, Repr

/-- The configuration a reader is started with (44_host_frame_reader.md R171): `none` is an omitted setting, which takes
its default. The address and the parity have none. A timeout is a whole number of `T_UNIT`, 0 included; which durations R171
admits is open (DESIGN CHOICE, log entry 32). -/
structure ReaderConfig where
  address : String
  nChans  : Option Int
  enabled : Option Bool
  retry   : Option Bool
  timeout : Option Nat
  parity  : Parity
  deriving DecidableEq, Repr

/-- What a READ of 25 octets returns (44_host_frame_reader.md R173, R176). -/
inductive ReadOutcome where
  | octets (bs : List Byte)
  | transportError
  deriving DecidableEq, Repr

/-- What the outside does to the reader (44_host_frame_reader.md R171 to R183). -/
inductive HostEvent where
  /-- a reader is constructed with its configuration (R171) -/
  | start (c : ReaderConfig)
  /-- OPEN returns (R172) -/
  | openReturned (ok : Bool)
  /-- READ returns (R173) -/
  | readReturned (r : ReadOutcome)
  /-- the sink's `process` returns, or fails (R177, R182) -/
  | sinkReturned (ok : Bool)
  /-- the backoff sleep ends (R183) -/
  | sleepEnded
  /-- the `enabled` flag is flipped (R180) -/
  | setEnabled (b : Bool)
  deriving DecidableEq, Repr

/-- One input of the machine: reset asserted (70_reset_and_hazards.md R230), a command presented (10_state.md R31), or an
event of the host contract. -/
inductive Input where
  | rst
  | command (c : Ports)
  | event (e : HostEvent)
  deriving DecidableEq, Repr

/-- Everything the spec gives the machine (INVENTORY.md, State). -/
structure State where
  params : Params
  /-- `CFG` (10_state.md R22) -/
  cfg    : CfgStatus
  /-- `NCH` (10_state.md R21): 0 to 16, or no value (10_state.md R33, 60_exceptions.md R205) -/
  nch    : Option (Fin 17)
  /-- the DECODE in progress, if any (10_state.md R29) -/
  txn    : Option Txn
  /-- the frame buffer: the frame of the DECODE in progress (20_memory.md R50, R60) -/
  mem    : Memory
  /-- the result ports: the answer of the command just completed (10_state.md R31, R35) -/
  result : Option Result
  /-- the host's FrameReader (44_host_frame_reader.md) -/
  reader : Reader
  /-- the inputs still to be taken, in order -/
  inbox  : List Input
  deriving DecidableEq, Repr

/-- Why the machine stops with a fault. -/
inductive Fault where
  /-- A phase read `n` octets from offset `addr` and one of them does not exist (20_memory.md R50, 00_scope.md R14: MemRead
  is defined only within the frame). Raised by `loadOctets`. Safe: no value is answered. -/
  | outsideFrame (addr n : Nat)
  deriving DecidableEq, Repr

/-- Why the machine gives a presented instruction no meaning. -/
inductive Refusal where
  /-- An instruction with no meaning yet, by its mnemonic. Raised by `exec`'s arms only. Safe. -/
  | notModelled (mnemonic : String)
  /-- CONFIG unless CFG is UNCONFIGURED (40_commands.md R102, 60_exceptions.md R212). Raised by `execConfig`. Safe. -/
  | configNotUnconfigured
  /-- DECODE, or a phase of it, unless CFG is READY and NCH holds a value (40_commands.md R106, 60_exceptions.md R212).
  Raised by `openTxn` and the phases. Safe. -/
  | decodeNotReady
  /-- A command while another is in progress on the instance (70_reset_and_hazards.md R236). Raised by `execConfig` and
  `openTxn`. Safe. -/
  | commandInProgress
  /-- A phase where no DECODE is in progress: phases exist only inside one (10_state.md R29). Raised by the phases. Safe. -/
  | noTransaction
  /-- A phase before the checks it follows, or EXT beyond NCH (40_commands.md R103, 42_unpack.md R133). Raised by the
  phases. Safe. -/
  | phaseOutOfPlace
  /-- A phase whose operand holds no value (10_state.md R27, R29). Raised by DROPHDR, EXT and EMIT. Safe. -/
  | operandWithoutValue
  /-- A port value that cannot be presented (93_implementation_defined.md U11). Raised by `step`. Safe. -/
  | notPresentable (r : DecodeReject)
  /-- A host event that answers no call of the reader (44_host_frame_reader.md R172, R173). Raised by `readerEvent`. Safe. -/
  | eventOutOfPlace
  /-- A DECODE in progress with no phase left to run; no run reaches it. Raised by `step`. Safe. -/
  | noPhaseLeft
  deriving DecidableEq, Repr

/-- A reader that is not attached, with the defaults of 44_host_frame_reader.md R171 (log entry 19 for the rest). -/
def Reader.reset : Reader where
  address := ""
  nChans := none
  enabled := Config.defaultEnabled
  retry := Config.defaultRetry
  timeout := Config.defaultTimeout
  parity := .even
  phase := .absent
  sessionOpen := false
  effects := []

/-- The machine right after reset (10_state.md R33, 70_reset_and_hazards.md R230): UNCONFIGURED, NCH without a value, no
transaction, no frame, no result, nothing presented (70 R231). -/
def State.reset : State where
  params := Params.default
  cfg := .unconfigured
  nch := none
  txn := none
  mem := []
  result := none
  reader := Reader.reset
  inbox := []

end Sys2Proof.Machine
end

