-- ==== Sys2Proof/Machine/Ops.lean ====
section
/-! DEFINITION. The named operations over the frame buffer and the state: loading and reading the frame (20_memory.md),
opening a DECODE, ending a command with a result or an error (60_exceptions.md R204), reset (70_reset_and_hazards.md R230),
and what every phase of DECODE asks of the state. -/

namespace Sys2Proof.Machine

open Sys2Proof

/-- The answer of one step of this machine. -/
abbrev Answer := Host.Outcome State Fault Refusal

/-! ### The frame buffer -/

/-- The one canonical form of a memory: addresses strictly rising, so that no address is listed twice. Every listed octet
is an octet presented; an address that is not listed has no value, so no entry repeats what an unlisted one reads as. -/
abbrev Memory.wf (m : Memory) : Prop := m.Pairwise (fun x y => x.1 < y.1)

/-- The octets `bs` at the addresses from `a` on. -/
def Memory.ofOctetsFrom (a : Nat) : List Byte → Memory
  | []      => []
  | b :: bs => (a, b) :: Memory.ofOctetsFrom (a + 1) bs

/-- The frame buffer that holds a frame: octet `j` at offset `j` (20_memory.md R50). -/
def Memory.ofOctets (bs : List Byte) : Memory := Memory.ofOctetsFrom 0 bs

/-- One octet; none where the offset does not exist (20_memory.md R50). -/
def Memory.read : Memory → Nat → Option Byte
  | [],          _ => none
  | (x, b) :: m, a => if x = a then some b else Memory.read m a

/-- `MemRead(a, n)`: the unsigned little-endian value of the `n` octets at offsets `a` to `a + n - 1`, defined only when all
of them exist (00_scope.md R14, 20_memory.md R53). -/
def Memory.readLE (m : Memory) (a : Nat) : Nat → Option Nat
  | 0     => some 0
  | n + 1 =>
    match Memory.read m a, Memory.readLE m (a + 1) n with
    | some b, some v => some (b.toNat + 256 * v)
    | _, _           => none

/-- A phase's read of the frame: the phase goes on with the value, or faults where an octet does not exist. -/
def loadOctets (s : State) (a n : Nat) (k : Nat → Answer) : Answer :=
  match s.mem.readLE a n with
  | some v => k v
  | none   => .fault (.outsideFrame a n)

/-- A phase's read of one octet, `MemRead(a, 1)` (00_scope.md R14). -/
def loadOctet (s : State) (a : Nat) (k : Byte → Answer) : Answer :=
  loadOctets s a 1 fun v => k (BitVec.ofNat 8 v)

/-! ### The transaction -/

/-- A DECODE just presented: `len` is known, nothing else holds a value (10_state.md R29). -/
def Txn.start (len : Nat) (todo : List Instr) : Txn where
  stage := .opened
  len := len
  f := none
  acc := none
  idx := none
  ch := Vector.replicate 16 none
  failsafe := none
  frameLost := none
  ch18 := none
  ch17 := none
  todo := todo

/-- The open transaction takes new transient values; nothing else changes. -/
def State.withTxn (s : State) (t : Txn) : State := { s with txn := some t }

/-- The phases the sequencer has to run one a step; none where the DECODE is one atomic step (40_commands.md R107). -/
def plannedPhases (form : Form) (n : Nat) : List Instr :=
  match form with
  | .transaction => []
  | .accumulator => phasesOf .accumulator n
  | .extractors  => phasesOf .extractors n

/-- DECODE is presented: one command at a time (70_reset_and_hazards.md R236), refused unless READY (40_commands.md R106);
the frame is taken as one snapshot (20_memory.md R60). -/
def openTxn (form : Form) (frame : List Byte) (s : State) : Answer :=
  if s.txn.isSome then .refused .commandInProgress
  else if s.cfg = .ready then
    match s.nch with
    | some n => .next { s with
        txn := some (Txn.start frame.length (plannedPhases form n.val))
        mem := Memory.ofOctets frame
        result := none }
    | none   => .refused .decodeNotReady
  else .refused .decodeNotReady

/-- The DECODE in progress is over: its transient values and the frame are gone (10_state.md R29, R35). -/
def State.closeTxn (s : State) : State := { s with txn := none, mem := [] }

/-- The command answers: its result is on the result ports (10_state.md R31). -/
def State.answer (s : State) (r : Result) : State := { s with result := some r }

/-- `raise` (60_exceptions.md R204), the one way an error is taken: the command's result is the error and nothing else.
Nothing is saved, no slot, flag, CFG or NCH is written, control goes nowhere. There is no return from an error: the block
is ready for the next command (60_exceptions.md R209). -/
def State.raise (s : State) (e : BlockError) : State := s.answer (.err e)

/-- What every phase of DECODE asks for: a DECODE in progress (10_state.md R29) on a READY instance (40_commands.md R106). -/
def inTxn (s : State) (k : Txn → Fin 17 → Answer) : Answer :=
  match s.txn with
  | none   => .refused .noTransaction
  | some t =>
    match s.cfg, s.nch with
    | .ready, some n => k t n
    | _, _           => .refused .decodeNotReady

/-- What a phase that follows the stage `st` asks for (41_validate.md R123, 40_commands.md R103). -/
def atStage (st : Stage) (s : State) (k : Txn → Fin 17 → Answer) : Answer :=
  inTxn s fun t n => if t.stage = st then k t n else .refused .phaseOutOfPlace

/-- The next phase of a DECODE run in one step: it runs only while the DECODE is in progress, so an error skips every later
phase (41_validate.md R123). -/
def thenPhase (o : Answer) (phase : State → Answer) : Answer :=
  match o with
  | .next s    =>
    match s.txn with
    | some _ => phase s
    | none   => .next s
  | .fault r   => .fault r
  | .refused r => .refused r

/-- A sequence of phases, one after the other. -/
def runPhases (o : Answer) (phases : List (State → Answer)) : Answer := phases.foldl thenPhase o

/-! ### Inputs and reset -/

/-- The step has taken the inputs up to `rest`; between transactions the result ports show nothing that may be relied on
(10_state.md R35), so the last answer is no longer there (log entry 8). -/
def State.taken (s : State) (rest : List Input) : State := { s with inbox := rest, result := none }

/-- A reader that waits for the answer of a command the reset has abandoned gets none (log entry 14). -/
def Reader.afterReset (r : Reader) : Reader :=
  match r.phase with
  | .constructing | .decoding => { r with phase := .stopped .decoderLost }
  | .absent | .outerTop _ | .opening | .innerTop | .reading | .dispatching | .closing | .sleeping | .stopped _ => r

/-- Reset (70_reset_and_hazards.md R230): the block is as in 10_state.md R33, a transaction in progress is abandoned without
a result. The host's own state and what it still presents are no state of the block (10_state.md R34). -/
def State.resetBlock (s : State) : State :=
  { s with cfg := .unconfigured, nch := none, txn := none, mem := [], result := none, reader := s.reader.afterReset }

end Sys2Proof.Machine
end

