-- ==== Sys2Proof/Machine/Checks.lean ====
section
/-! DEFINITION. The validation phases CHK.LEN, CHK.HDR and CHK.END of DECODE (41_validate.md). -/

namespace Sys2Proof.Machine

open Sys2Proof

/-- CHK.LEN (41_validate.md R120): `len` must be 25; no octet is read (20_memory.md R57). -/
def execChkLen (s : State) : Answer :=
  atStage .opened s fun t _ =>
    if t.len = Config.frameLen then .next (s.withTxn { t with stage := .lenOk })
    else .next (s.closeTxn.raise (.wrongLength Config.frameLen t.len))

/-- CHK.HDR (41_validate.md R121): octet 0 must be `0x0F`; reached only when CHK.LEN has passed. -/
def execChkHdr (s : State) : Answer :=
  atStage .lenOk s fun t _ =>
    loadOctet s 0 fun b =>
      if b = Config.header then .next (s.withTxn { t with stage := .hdrOk })
      else .next (s.closeTxn.raise (.wrongHeader Config.header.toNat b.toNat))

/-- CHK.END (41_validate.md R122): octet 24 must be `0x00`; reached only when CHK.HDR has passed. -/
def execChkEnd (s : State) : Answer :=
  atStage .hdrOk s fun t _ =>
    loadOctet s 24 fun b =>
      if b = Config.endByte then .next (s.withTxn { t with stage := .checked })
      else .next (s.closeTxn.raise (.wrongEndByte Config.endByte.toNat b.toNat))

end Sys2Proof.Machine
end

