-- ==== Sys2Proof/Machine/Flags.lean ====
section
/-! DEFINITION. The flag computation: each flag is `(frame[23] & mask) != 0` (30_encoding.md R75, 43_flags.md). -/

namespace Sys2Proof.Machine

open Sys2Proof

/-- `(octet & mask) != 0` (30_encoding.md R75). -/
def flagOf (mask octet : Byte) : Bool := (octet &&& mask) != 0

/-- A flag phase: octet 23 of the original frame, not of the accumulator, gives one flag (43_flags.md R160 to R163). -/
def flagPhase (mask : Byte) (put : Txn → Bool → Txn) (s : State) : Answer :=
  atStage .checked s fun t _ =>
    loadOctet s Config.flagsOff fun b => .next (s.withTxn (put t (flagOf mask b)))

end Sys2Proof.Machine
end

