-- ==== Sys2Proof/Machine/Operands.lean ====
section
/-! DEFINITION. The operand forms of the unpacking: the sixteen fixed extractors as one operation (42_unpack.md R134 to
R149), the slots collected by EMIT, and the three other ways the spec writes a channel (30_encoding.md R73, R74). -/

namespace Sys2Proof.Machine

open Sys2Proof

/-- `MemRead(a, n) >> sh & 0x7FF` as an 11-bit value (30_encoding.md R74): the low 11 bits of the shifted value. -/
def chanOf (v sh : Nat) : Chan := BitVec.ofNat 11 (v >>> sh)

/-- EXT.CH`i` (42_unpack.md R134 to R149): the `n` octets from `a`, shifted right by `sh`, low 11 bits, into slot `i`; where
NCH is at most `i` the slot keeps no value. -/
def extractFixed (i a n sh : Nat) (s : State) : Answer :=
  atStage .checked s fun t nch =>
    if i < nch.val then
      loadOctets s a n fun v => .next (s.withTxn { t with ch := t.ch.setIfInBounds i (some (chanOf v sh)) })
    else .next s

/-- The values of a list of slots; none if one of them holds no value (10_state.md R27). -/
def allValues {α : Type} : List (Option α) → Option (List α)
  | []      => some []
  | x :: xs =>
    match x, allValues xs with
    | some v, some vs => some (v :: vs)
    | _, _            => none

/-- The first octet of channel `i`: `1 + 11*i // 8` (30_encoding.md R74). -/
def chanAddr (i : Nat) : Nat := 1 + Config.chBits * i / 8

/-- The bit offset of channel `i` in its first octet: `11*i mod 8` (30_encoding.md R74). -/
def chanShift (i : Nat) : Nat := Config.chBits * i % 8

/-- How many octets channel `i` touches: two where its bit offset is 5 or less, else three (20_memory.md R55,
30_encoding.md R74). -/
def chanOctets (i : Nat) : Nat := if chanShift i ≤ 5 then 2 else 3

/-- Channel `i` of the frame integer: `(F >> (8 + 11*i)) & 0x7FF` (30_encoding.md R73). -/
def chanOfInt (f i : Nat) : Chan := BitVec.ofNat 11 ((f >>> (8 + Config.chBits * i)) &&& Config.chMask)

end Sys2Proof.Machine
end

