-- ==== Sys2Proof/Machine/Results.lean ====
section
/-! DEFINITION. The flag phases FLG.FS, FLG.FL, FLG.CH18, FLG.CH17 and the result phase EMIT (43_flags.md). -/

namespace Sys2Proof.Machine

open Sys2Proof

/-- FLG.FS (43_flags.md R160): mask `0x10`. -/
def execFlgFs (s : State) : Answer := flagPhase Config.fsMask (fun t b => { t with failsafe := some b }) s

/-- FLG.FL (43_flags.md R161): mask `0x20`. -/
def execFlgFl (s : State) : Answer := flagPhase Config.flMask (fun t b => { t with frameLost := some b }) s

/-- FLG.CH18 (43_flags.md R162): mask `0x40`. -/
def execFlgCh18 (s : State) : Answer := flagPhase Config.ch18Mask (fun t b => { t with ch18 := some b }) s

/-- FLG.CH17 (43_flags.md R163): mask `0x80`. -/
def execFlgCh17 (s : State) : Answer := flagPhase Config.ch17Mask (fun t b => { t with ch17 := some b }) s

/-- The record EMIT delivers: slots 0 to NCH - 1 and the four flags; none while one of them holds no value
(43_flags.md R166, 10_state.md R27). -/
def Txn.record (t : Txn) (n : Nat) : Option DecodedFrame :=
  match allValues (t.ch.toList.take n), t.failsafe, t.frameLost, t.ch17, t.ch18 with
  | some cs, some fs, some fl, some c17, some c18 =>
    some { channels := cs, failsafe := fs, frameLost := fl, ch17 := c17, ch18 := c18 }
  | _, _, _, _, _ => none

/-- EMIT (43_flags.md R166): the DECODE ends with the DecodedFrame; the block keeps no copy (10_state.md R35). -/
def execEmit (s : State) : Answer :=
  atStage .checked s fun t n =>
    match t.record n.val with
    | some d => .next (s.closeTxn.answer (.ok d))
    | none   => .refused .operandWithoutValue

end Sys2Proof.Machine
end

