-- ==== Sys2Proof/Machine/Unpack.lean ====
section
/-! DEFINITION. The unpacking phases of DECODE: ASM, DROPHDR, EXT and the sixteen fixed extractors (42_unpack.md). They run
only when the three checks have passed. -/

namespace Sys2Proof.Machine

open Sys2Proof

/-- ASM (42_unpack.md R130): `F <- MemRead(0, 25)`. -/
def execAsm (s : State) : Answer :=
  atStage .checked s fun t _ =>
    loadOctets s 0 Config.frameLen fun v => .next (s.withTxn { t with f := some (BitVec.ofNat 200 v) })

/-- DROPHDR (42_unpack.md R131): `ACC <- F >> 8`, 192 bits, and `IDX <- 0`. -/
def execDropHdr (s : State) : Answer :=
  atStage .checked s fun t _ =>
    match t.f with
    | some f => .next (s.withTxn { t with acc := some ((f >>> 8).setWidth 192), idx := some 0 })
    | none   => .refused .operandWithoutValue

/-- EXT (42_unpack.md R132): the low 11 bits of ACC go to slot IDX, ACC moves right by 11, IDX by 1. It runs NCH times
(42_unpack.md R133), so at IDX = NCH it is out of place. -/
def execExt (s : State) : Answer :=
  atStage .checked s fun t n =>
    match t.acc, t.idx with
    | some a, some i =>
      if i.toNat < n.val then
        .next (s.withTxn { t with
          ch := t.ch.setIfInBounds i.toNat (some (a.setWidth 11))
          acc := some (a >>> 11)
          idx := some (i + 1) })
      else .refused .phaseOutOfPlace
    | _, _ => .refused .operandWithoutValue

/-- EXT.CH0 (42_unpack.md R134): `MemRead(1, 2) >> 0`. -/
def execExtCh0 (s : State) : Answer := extractFixed 0 1 2 0 s
/-- EXT.CH1 (42_unpack.md R135): `MemRead(2, 2) >> 3`. -/
def execExtCh1 (s : State) : Answer := extractFixed 1 2 2 3 s
/-- EXT.CH2 (42_unpack.md R136): `MemRead(3, 3) >> 6`. -/
def execExtCh2 (s : State) : Answer := extractFixed 2 3 3 6 s
/-- EXT.CH3 (42_unpack.md R137): `MemRead(5, 2) >> 1`. -/
def execExtCh3 (s : State) : Answer := extractFixed 3 5 2 1 s
/-- EXT.CH4 (42_unpack.md R138): `MemRead(6, 2) >> 4`. -/
def execExtCh4 (s : State) : Answer := extractFixed 4 6 2 4 s
/-- EXT.CH5 (42_unpack.md R139): `MemRead(7, 3) >> 7`. -/
def execExtCh5 (s : State) : Answer := extractFixed 5 7 3 7 s
/-- EXT.CH6 (42_unpack.md R140): `MemRead(9, 2) >> 2`. -/
def execExtCh6 (s : State) : Answer := extractFixed 6 9 2 2 s
/-- EXT.CH7 (42_unpack.md R141): `MemRead(10, 2) >> 5`. -/
def execExtCh7 (s : State) : Answer := extractFixed 7 10 2 5 s
/-- EXT.CH8 (42_unpack.md R142): `MemRead(12, 2) >> 0`. -/
def execExtCh8 (s : State) : Answer := extractFixed 8 12 2 0 s
/-- EXT.CH9 (42_unpack.md R143): `MemRead(13, 2) >> 3`. -/
def execExtCh9 (s : State) : Answer := extractFixed 9 13 2 3 s
/-- EXT.CH10 (42_unpack.md R144): `MemRead(14, 3) >> 6`. -/
def execExtCh10 (s : State) : Answer := extractFixed 10 14 3 6 s
/-- EXT.CH11 (42_unpack.md R145): `MemRead(16, 2) >> 1`. -/
def execExtCh11 (s : State) : Answer := extractFixed 11 16 2 1 s
/-- EXT.CH12 (42_unpack.md R146): `MemRead(17, 2) >> 4`. -/
def execExtCh12 (s : State) : Answer := extractFixed 12 17 2 4 s
/-- EXT.CH13 (42_unpack.md R147): `MemRead(18, 3) >> 7`. -/
def execExtCh13 (s : State) : Answer := extractFixed 13 18 3 7 s
/-- EXT.CH14 (42_unpack.md R148): `MemRead(20, 2) >> 2`. -/
def execExtCh14 (s : State) : Answer := extractFixed 14 20 2 2 s
/-- EXT.CH15 (42_unpack.md R149): `MemRead(21, 2) >> 5`. -/
def execExtCh15 (s : State) : Answer := extractFixed 15 21 2 5 s

end Sys2Proof.Machine
end

