-- ==== Sys2Proof/Machine/Commands.lean ====
section
/-! DEFINITION. The two commands: CONFIG (40_commands.md R100 to R102) and DECODE as its phases in their order, one atomic
step (40_commands.md R103). -/

namespace Sys2Proof.Machine

open Sys2Proof

/-- The channel count an operand gives; the omitted operand means 16 (40_commands.md R101). -/
def configValue (n : Option Int) : Int := n.getD Config.defaultChans

/-- The channel count as the value of NCH, where the operand is in 0 to 16 (40_commands.md R100). -/
def countOf (v : Int) : Option (Fin 17) :=
  if 0 ≤ v then
    if h : v.toNat < 17 then some ⟨v.toNat, h⟩ else none
  else none

/-- CONFIG (40_commands.md R100): accepted once per instance (R102); an operand outside 0 to 16 is a ConfigError and leaves
CFG_FAULT, with NCH still without a value (60_exceptions.md R205). -/
def execConfig (n : Option Int) (s : State) : Answer :=
  if s.txn.isSome then .refused .commandInProgress
  else if s.cfg = .unconfigured then
    match countOf (configValue n) with
    | some c => .next { s with cfg := .ready, nch := some c, result := some .accepted }
    | none   => .next ({ s with cfg := .cfgFault }.raise (.configError 0 16 (configValue n)))
  else .refused .configNotUnconfigured

/-- The phases of a DECODE in their order, EXT `n` times (40_commands.md R103, 42_unpack.md R133). -/
def decodePhases (n : Nat) : List (State → Answer) :=
  [execChkLen, execChkHdr, execChkEnd, execAsm, execDropHdr] ++ List.replicate n execExt
    ++ [execFlgFs, execFlgFl, execFlgCh18, execFlgCh17, execEmit]

/-- DECODE (40_commands.md R103): the frame is validated and unpacked in one step. -/
def execDecode (frame : List Byte) (s : State) : Answer :=
  match s.nch with
  | some n => runPhases (openTxn .transaction frame s) (decodePhases n.val)
  | none   => openTxn .transaction frame s

end Sys2Proof.Machine
end

