-- ==== Sys2Proof/Machine/Dispatch.lean ====
section
/-! DEFINITION. The dispatch of an instruction to its meaning, one arm per row of spec/opcode_table.json. -/

namespace Sys2Proof.Machine

open Sys2Proof

def exec (i : Instr) (s : State) : Host.Outcome State Fault Refusal :=
  match i with
  | .config n => Sys2Proof.Machine.execConfig n s
  | .decode frame => Sys2Proof.Machine.execDecode frame s
  | .chkLen => Sys2Proof.Machine.execChkLen s
  | .chkHdr => Sys2Proof.Machine.execChkHdr s
  | .chkEnd => Sys2Proof.Machine.execChkEnd s
  | .asm => Sys2Proof.Machine.execAsm s
  | .dropHdr => Sys2Proof.Machine.execDropHdr s
  | .ext => Sys2Proof.Machine.execExt s
  | .extCh0 => Sys2Proof.Machine.execExtCh0 s
  | .extCh1 => Sys2Proof.Machine.execExtCh1 s
  | .extCh2 => Sys2Proof.Machine.execExtCh2 s
  | .extCh3 => Sys2Proof.Machine.execExtCh3 s
  | .extCh4 => Sys2Proof.Machine.execExtCh4 s
  | .extCh5 => Sys2Proof.Machine.execExtCh5 s
  | .extCh6 => Sys2Proof.Machine.execExtCh6 s
  | .extCh7 => Sys2Proof.Machine.execExtCh7 s
  | .extCh8 => Sys2Proof.Machine.execExtCh8 s
  | .extCh9 => Sys2Proof.Machine.execExtCh9 s
  | .extCh10 => Sys2Proof.Machine.execExtCh10 s
  | .extCh11 => Sys2Proof.Machine.execExtCh11 s
  | .extCh12 => Sys2Proof.Machine.execExtCh12 s
  | .extCh13 => Sys2Proof.Machine.execExtCh13 s
  | .extCh14 => Sys2Proof.Machine.execExtCh14 s
  | .extCh15 => Sys2Proof.Machine.execExtCh15 s
  | .flgFs => Sys2Proof.Machine.execFlgFs s
  | .flgFl => Sys2Proof.Machine.execFlgFl s
  | .flgCh18 => Sys2Proof.Machine.execFlgCh18 s
  | .flgCh17 => Sys2Proof.Machine.execFlgCh17 s
  | .emit => Sys2Proof.Machine.execEmit s

end Sys2Proof.Machine
end

