-- ==== Sys2Proof/Machine/FrameReader.lean ====
section
/-! DEFINITION. The host's FrameReader (44_host_frame_reader.md): its own moves through the outer and inner loop (R172,
R173), and what it does when a call of its returns (R174 to R183). The block is reached only through the commands it
presents. -/

namespace Sys2Proof.Machine

open Sys2Proof

/-- "baud rate 100 000, 8 data bits ... 2 stop bits", fixed protocol constants (44_host_frame_reader.md R172, R176). -/
def Reader.openParams (r : Reader) : OpenParams where
  address := r.address
  baud := 100000
  dataBits := 8
  parity := r.parity
  stopBits := 2
  timeout := r.timeout

/-- Bit times one frame occupies the line (70_reset_and_hazards.md R241): a start bit, 8 data bits, the parity bit if any
and 2 stop bits for each octet. No rule depends on it. -/
def frameBitTimes (p : Parity) : Nat :=
  Config.frameLen * (1 + 8 + (match p with | .even => 1 | .none => 0) + 2)

/-- The reader does something the outside can see (44_host_frame_reader.md R181). -/
def Reader.emit (r : Reader) (e : Effect) : Reader := { r with effects := r.effects ++ [e] }

/-- The reader goes on at `p`. -/
def Reader.goto (r : Reader) (p : ReaderPhase) : Reader := { r with phase := p }

/-- The command that presents a frame (44_host_frame_reader.md R173, R175, R177). -/
def decodeInput (bs : List Byte) : Input := .command { cmd := 1, cfgN := none, frame := bs }

/-- The command that presents `n_chans` at construction (44_host_frame_reader.md R171), where it can be presented
(93_implementation_defined.md U11). -/
def configInput (p : Params) (n : Option Int) : Option Input :=
  if wellFormed p (.config n) then (encodePorts p (.config n)).map .command else none

/-- A reader at the end of a session (44_host_frame_reader.md R172): CLOSE if open, and one backoff SLEEP if `enabled` and
RETRY still hold (R183). -/
def Reader.endSession (r : Reader) : Reader :=
  let r1 := if r.sessionOpen then { r.emit .closed with sessionOpen := false } else r
  if r.enabled && r.retry then (r1.emit (.slept 1)).goto .sleeping else r1.goto (.outerTop false)

/-- The reader's own move, given the answer on the result ports; none where it waits (44_host_frame_reader.md R172, R173,
R184). -/
def readerMove (r : Reader) (answer : Option Result) : Option Reader :=
  match r.phase with
  | .constructing =>
    match answer with
    | some .accepted                 => some (r.goto (.outerTop true))
    | some (.err (.configError _ _ _)) => some (r.goto (.stopped .configError))
    | _                              => none
  | .outerTop first =>
    if r.enabled && (first || r.retry) then some ((r.emit (.opened r.openParams)).goto .opening)
    else some (r.goto (.stopped .normal))
  | .innerTop =>
    if r.enabled then some ((r.emit (.read Config.frameLen)).goto .reading) else some (r.goto .closing)
  | .decoding =>
    match answer with
    | some (.ok d)  => some ((r.emit (.dispatched d)).goto .dispatching)
    | some (.err e) => some ((r.emit (.logError (.decodeFailure e))).goto .closing)
    | _             => none
  | .closing => some r.endSession
  | .absent | .opening | .reading | .dispatching | .sleeping | .stopped _ => none

/-- A reader is constructed with its configuration, the omitted settings at their defaults (44_host_frame_reader.md R171);
past side effects stay on record. It begins with no session: one that a stopped reader left open is forgotten, and no CLOSE
is recorded for it (DESIGN CHOICE, log entry 31). -/
def Reader.start (r : Reader) (c : ReaderConfig) : Reader where
  address := c.address
  nChans := c.nChans
  enabled := c.enabled.getD Config.defaultEnabled
  retry := c.retry.getD Config.defaultRetry
  timeout := c.timeout.getD Config.defaultTimeout
  parity := c.parity
  phase := .constructing
  sessionOpen := false
  effects := r.effects

/-- What the reader does when READ returns (44_host_frame_reader.md R174, R175, R177, R179), and the command it presents. -/
def Reader.onRead (r : Reader) : ReadOutcome → Option (Reader × List Input)
  | .transportError => some ((r.emit (.logError .transportError)).goto .closing, [])
  | .octets bs      =>
    if bs.length = 0 then some ((r.emit (.logWarning r.address r.timeout)).goto .innerTop, [])
    else if bs.length ≤ Config.frameLen then some (r.goto .decoding, [decodeInput bs])
    else none

/-- An event of the host contract (44_host_frame_reader.md R171 to R183): the reader after it and the commands it presents;
none where the event answers no call of the reader. -/
def readerEvent (p : Params) (e : HostEvent) (r : Reader) : Option (Reader × List Input) :=
  match e, r.phase with
  | .start c, .absent | .start c, .stopped _ => (configInput p c.nChans).map (fun i => (r.start c, [i]))
  | .openReturned true, .opening   => some ({ r with sessionOpen := true }.goto .innerTop, [])
  | .openReturned false, .opening  => some (r.goto .closing, [])
  | .readReturned o, .reading      => r.onRead o
  | .sinkReturned true, .dispatching  => some (r.goto .innerTop, [])
  | .sinkReturned false, .dispatching => some (r.goto (.stopped .sinkFailure), [])
  | .sleepEnded, .sleeping         => some (r.goto (.outerTop false), [])
  | .setEnabled b, _               => some ({ r with enabled := b }, [])
  | _, _                           => none

/-- The step that takes an event: the commands the reader presents stand before the inputs that still wait, since its call
of the decoder is synchronous (44_host_frame_reader.md R184). -/
def takeEvent (e : HostEvent) (s : State) : Answer :=
  match readerEvent s.params e s.reader with
  | some (r, presented) => .next { s with reader := r, inbox := presented ++ s.inbox }
  | none                => .refused .eventOutOfPlace

end Sys2Proof.Machine
end

