-- ==== Sys2Proof/Machine/Fetch.lean ====
section
/-! DEFINITION. How the next thing to run is fetched: a presented command through the decoder, a phase of the DECODE in
progress, a reset, or an event of the host contract (30_encoding.md R79, 70_reset_and_hazards.md R230, R231). -/

namespace Sys2Proof.Machine

open Sys2Proof

/-- A decoded command runs: in the two forms that go phase by phase, DECODE only opens the transaction and its phases run
in the steps after it (40_commands.md R107, 92_eei_decisions.md D14). -/
def runInstr (i : Instr) (s : State) : Answer :=
  match s.params.form, i with
  | .accumulator, .decode frame => openTxn .accumulator frame s
  | .extractors, .decode frame  => openTxn .extractors frame s
  | _, _                        => exec i s

/-- A presented command runs, if it can be presented at all (93_implementation_defined.md U11). -/
def runCommand (c : Ports) (s : State) : Answer :=
  match decodePorts s.params c with
  | .instr i  => runInstr i s
  | .reject r => .refused (.notPresentable r)

/-- The next phase of the DECODE in progress runs (40_commands.md R103). -/
def runPhase (t : Txn) (s : State) : Answer :=
  match t.todo with
  | i :: rest => exec i (s.withTxn { t with todo := rest })
  | []        => .refused .noPhaseLeft

/-- Reset is asserted, and nothing else is in front of it. -/
def State.resetAsserted (s : State) : Bool := s.inbox.head? == some .rst

/-- The next input is taken; with none, the block does nothing (70_reset_and_hazards.md R231). -/
def takeInput (s : State) : Answer :=
  match s.inbox with
  | []                => .next (s.taken [])
  | .rst :: rest      => .next (s.taken rest).resetBlock
  | .command c :: rest => runCommand c (s.taken rest)
  | .event e :: rest  => takeEvent e (s.taken rest)

/-- An opcode-table word is presented as the next command of an instance with no command in progress and no reader's move
before it, under the parameters the table is written for (log entry 13). -/
def State.present (s : State) (c : Ports) : State :=
  { s with
    params := Params.default
    txn := none
    mem := []
    reader := { s.reader with phase := .absent }
    inbox := .command c :: s.inbox }

end Sys2Proof.Machine
end

