-- ==== Sys2Proof/Machine/Step.lean ====
section
/-! DEFINITION. One step of the machine: the reader's own move if it has one, else the next phase of a DECODE in progress
(reset abandons it), else the next input (70_reset_and_hazards.md R240: a transaction is one step). -/

namespace Sys2Proof.Machine

open Sys2Proof

def step (s : State) : Host.Outcome State Fault Refusal :=
  match readerMove s.reader s.result with
  | some r => .next { s.taken s.inbox with reader := r }
  | none   =>
    match s.txn with
    | none   => takeInput s
    | some t => if s.resetAsserted then takeInput s else runPhase t (s.taken s.inbox)

/-- The state with an opcode-table word presented as the very next command. -/
def State.withFetchWord (s : State) (nbits w : Nat) : State := s.present (tablePorts nbits w)

end Sys2Proof.Machine
end

