-- ==== Sys2Proof/Machine/Closed.lean ====
section
/-! DEFINITION. DECODE in closed form (40_commands.md R104), the match and mask of a valid frame (30_encoding.md R79), and
the spec's notation for frames and records: PACK (30_encoding.md R92) and OKWORD (30_encoding.md R77). Claims are stated
with these; the machine itself runs the phases. -/

namespace Sys2Proof.Machine

open Sys2Proof

/-- `frame[j]`; asked for only where it exists. -/
def octetAt (frame : List Byte) (j : Nat) : Byte := frame.getD j 0

/-- The DecodedFrame of a valid frame under the channel count `n` (40_commands.md R104). -/
def decodedFrame (n : Nat) (frame : List Byte) : DecodedFrame where
  channels  := (List.range n).map (chanOfInt (frameInt frame))
  failsafe  := flagOf Config.fsMask (octetAt frame Config.flagsOff)
  frameLost := flagOf Config.flMask (octetAt frame Config.flagsOff)
  ch18      := flagOf Config.ch18Mask (octetAt frame Config.flagsOff)
  ch17      := flagOf Config.ch17Mask (octetAt frame Config.flagsOff)

/-- DECODE in closed form for an instance with NCH = `n` (40_commands.md R104). -/
def decodeResult (n : Nat) (frame : List Byte) : Result :=
  if frame.length ≠ 25 then .err (.wrongLength 25 frame.length)
  else if octetAt frame 0 ≠ 0x0F then .err (.wrongHeader 0x0F (octetAt frame 0).toNat)
  else if octetAt frame 24 ≠ 0x00 then .err (.wrongEndByte 0x00 (octetAt frame 24).toNat)
  else .ok (decodedFrame n frame)

/-- `MASK` of 30_encoding.md R79: bits 199 to 192 and 7 to 0. -/
def validMask : Nat := 0xFF0000000000000000000000000000000000000000000000FF

/-- `MATCH` of 30_encoding.md R79. -/
def validMatch : Nat := 0x0000000000000000000000000000000000000000000000000F

/-- A valid frame in match and mask form (30_encoding.md R79). -/
abbrev ValidFrame (frame : List Byte) : Prop :=
  frame.length = 25 ∧ frameInt frame &&& validMask = validMatch

/-- `sum over i of c_i * 2^(8 + 11*i)`, from lane `k` on (30_encoding.md R92). -/
def laneSum (k : Nat) : List Chan → Nat
  | []      => 0
  | c :: cs => c.toNat * 2 ^ (8 + 11 * k) + laneSum (k + 1) cs

/-- The integer PACK writes out (30_encoding.md R92): the unused nibble and the end octet are 0. -/
def packInt (c : Vector Chan 16) (fs fl c18 c17 : Bool) : Nat :=
  0x0F + laneSum 0 c.toList + fs.toNat * 2 ^ 188 + fl.toNat * 2 ^ 189 + c18.toNat * 2 ^ 190 + c17.toNat * 2 ^ 191

/-- `PACK(c0..c15, fs, fl, c18, c17)`, 25 octets (30_encoding.md R92); notation for frames, the block packs nothing. -/
def pack (c : Vector Chan 16) (fs fl c18 c17 : Bool) : List Byte := octetsOf 25 (packInt c fs fl c18 c17)

/-- A frame with the unused nibble of octet 23 cleared (30_encoding.md R93, 43_flags.md R164). -/
def clearUnused (frame : List Byte) : List Byte :=
  frame.set Config.flagsOff (octetAt frame Config.flagsOff &&& 0xF0)

/-- `sum over i of c_i * 2^(11*i)`, the sixteen lanes of OKWORD, absent slots 0 (30_encoding.md R77). -/
def laneWord : List Chan → Nat
  | []      => 0
  | c :: cs => c.toNat + 2 ^ 11 * laneWord cs

/-- `OKWORD = ch17 ++ ch18 ++ frame_lost ++ failsafe ++ CH[15] ++ ... ++ CH[0]`, 180 bits (30_encoding.md R77). -/
def DecodedFrame.okWord (d : DecodedFrame) : BitVec 180 :=
  BitVec.ofNat 180 (laneWord d.channels + d.failsafe.toNat * 2 ^ 176 + d.frameLost.toNat * 2 ^ 177
    + d.ch18.toNat * 2 ^ 178 + d.ch17.toNat * 2 ^ 179)

end Sys2Proof.Machine
end

