-- ==== Sys2Proof/Machine/Outputs.lean ====
section
/-! DEFINITION. The output ports of 10_state.md R31 as functions of the state, absent where the spec gives them no value
(10_state.md R27, R35), and the port codes of 10_state.md R22 and 60_exceptions.md R206. -/

namespace Sys2Proof.Machine

open Sys2Proof

/-- `res_ok`: 1 for a success record, 0 for an error record, absent where neither is there (log entry 9). -/
def State.resOk (s : State) : Option Bool :=
  match s.result with
  | some (.ok _)    => some true
  | some (.err _)   => some false
  | some .accepted  => none
  | none            => none

/-- The success record on the ports, if there is one. -/
def State.resFrame (s : State) : Option DecodedFrame :=
  match s.result with
  | some (.ok d)    => some d
  | some (.err _)   => none
  | some .accepted  => none
  | none            => none

/-- The error record on the ports, if there is one. -/
def State.resError (s : State) : Option BlockError :=
  match s.result with
  | some (.err e)   => some e
  | some (.ok _)    => none
  | some .accepted  => none
  | none            => none

/-- `res_ch[i]`: valid only when `res_ok = 1` and `i < NCH` (10_state.md R27, R31). -/
def State.resCh (s : State) (i : Nat) : Option Chan := s.resFrame.bind (fun d => d.channels[i]?)

/-- `res_failsafe` (10_state.md R31). -/
def State.resFailsafe (s : State) : Option Bool := s.resFrame.map (·.failsafe)

/-- `res_frame_lost` (10_state.md R31). -/
def State.resFrameLost (s : State) : Option Bool := s.resFrame.map (·.frameLost)

/-- `res_ch18` (10_state.md R31). -/
def State.resCh18 (s : State) : Option Bool := s.resFrame.map (·.ch18)

/-- `res_ch17` (10_state.md R31). -/
def State.resCh17 (s : State) : Option Bool := s.resFrame.map (·.ch17)

/-- The codes of `err_kind` (60_exceptions.md R206). -/
def BlockError.code : BlockError → BitVec 3
  | .wrongLength _ _   => 1
  | .wrongHeader _ _   => 2
  | .wrongEndByte _ _  => 3
  | .configError _ _ _ => 4

/-- The whole code table of 60_exceptions.md R206: 0 is the encoding of "no error" (30_encoding.md R78). -/
def kindCode : Option BlockError → BitVec 3
  | none   => 0
  | some e => e.code

/-- `err_kind`: the code of the error record on the ports; like every error field it holds no value beside a success
(70_reset_and_hazards.md R237, 10_state.md R27, R31, 92_eei_decisions.md D12; DEDUCED for code 0, log entry 29). -/
def State.errKind (s : State) : Option (BitVec 3) := s.resError.map (fun e => kindCode (some e))

/-- The expected value an error carries. A ConfigError carries two bounds instead (30_encoding.md R78), and the spec does not
say how they stand on the one port: no value (DESIGN CHOICE, log entry 30). -/
def BlockError.expected : BlockError → Option Nat
  | .wrongLength e _   => some e
  | .wrongHeader e _   => some e
  | .wrongEndByte e _  => some e
  | .configError _ _ _ => none

/-- The actual value an error carries, signed for a ConfigError (30_encoding.md R78). -/
def BlockError.actual : BlockError → Int
  | .wrongLength _ a   => a
  | .wrongHeader _ a   => a
  | .wrongEndByte _ a  => a
  | .configError _ _ a => a

/-- `err_expected` (10_state.md R31); no value after a ConfigError (DESIGN CHOICE, log entry 30). -/
def State.errExpected (s : State) : Option Nat := s.resError.bind BlockError.expected

/-- `err_actual` (10_state.md R31). -/
def State.errActual (s : State) : Option Int := s.resError.map BlockError.actual

/-- The encoding of CFG; 3 is never produced (10_state.md R22). -/
def CfgStatus.code : CfgStatus → BitVec 2
  | .unconfigured => 0
  | .ready        => 1
  | .cfgFault     => 2

/-- `cfg_state` (10_state.md R31). -/
def State.cfgState (s : State) : BitVec 2 := s.cfg.code

/-- `cfg_nch`, 5 bits, valid only when CFG = READY (10_state.md R31). -/
def State.cfgNch (s : State) : Option (BitVec 5) :=
  if s.cfg = .ready then s.nch.map (fun n => BitVec.ofNat 5 n.val) else none

end Sys2Proof.Machine
end

