-- ==== Sys2Proof/Safety.lean ====
section
/-! DEFINITION. What counts as a good state and a good run, in the terms the claims use: the invariant of the machine, a
DECODE in progress, a refused run (70_reset_and_hazards.md R242). -/

namespace Sys2Proof.Machine

open Sys2Proof

/-- The transient values of a DECODE agree with the frame and NCH: the checks passed are true of the frame
(41_validate.md R120 to R122), F is the frame's integer (42_unpack.md R130), ACC is `F >> (8 + 11*IDX)` (42_unpack.md R132),
a slot holds its channel and only below NCH (42_unpack.md R133), a flag is its bit of octet 23 (43_flags.md). -/
structure Txn.Agrees (t : Txn) (n : Fin 17) (frame : List Byte) : Prop where
  len       : t.len = frame.length
  lenOk     : t.stage ≠ .opened → frame.length = 25
  hdrOk     : t.stage = .hdrOk ∨ t.stage = .checked → octetAt frame 0 = 0x0F
  endOk     : t.stage = .checked → octetAt frame 24 = 0x00
  f         : ∀ f, t.f = some f → f.toNat = frameInt frame
  acc       : ∀ a i, t.acc = some a → t.idx = some i →
                i.toNat ≤ n.val ∧ a.toNat = frameInt frame >>> (8 + 11 * i.toNat)
  ch        : ∀ (i : Nat) (h : i < 16) (v : Chan), t.ch[i] = some v → i < n.val ∧ v = chanOfInt (frameInt frame) i
  failsafe  : ∀ b, t.failsafe = some b → b = flagOf Config.fsMask (octetAt frame 23)
  frameLost : ∀ b, t.frameLost = some b → b = flagOf Config.flMask (octetAt frame 23)
  ch18      : ∀ b, t.ch18 = some b → b = flagOf Config.ch18Mask (octetAt frame 23)
  ch17      : ∀ b, t.ch17 = some b → b = flagOf Config.ch17Mask (octetAt frame 23)

/-- The invariant of the machine: NCH holds a value exactly when CFG is READY (10_state.md R21, R22, 60_exceptions.md R205);
the frame buffer is in its canonical form, and empty unless a DECODE is in progress (10_state.md R35); a DECODE in progress
is on a READY instance, answers nothing yet, and its values agree with its frame; a DecodedFrame on the result ports has
NCH channels (10_state.md R25). -/
structure State.Inv (s : State) : Prop where
  count   : s.nch.isSome ↔ s.cfg = .ready
  canonical : s.mem.wf
  idle    : s.txn = none → s.mem = []
  busy    : ∀ t, s.txn = some t → s.result = none ∧ ∃ n frame, s.nch = some n ∧ s.mem = Memory.ofOctets frame ∧
              t.Agrees n frame
  answer  : ∀ d, s.result = some (.ok d) → ∃ n, s.nch = some n ∧ d.channels.length = n.val

/-- The instance is READY with channel count `n`, and no command is in progress (40_commands.md R103,
70_reset_and_hazards.md R236). -/
structure State.Ready (s : State) (n : Fin 17) : Prop where
  cfg  : s.cfg = .ready
  nch  : s.nch = some n
  txn  : s.txn = none

/-- A DECODE of `frame` under the channel count `n` is in progress at the stage `st`, its transient values in `t`. -/
structure State.Decoding (s : State) (t : Txn) (n : Fin 17) (frame : List Byte) (st : Stage) : Prop where
  txn   : s.txn = some t
  cfg   : s.cfg = .ready
  nch   : s.nch = some n
  mem   : s.mem = Memory.ofOctets frame
  len   : t.len = frame.length
  stage : t.stage = st

/-- The instruction is a command, presented on the ports; every other one is a phase of DECODE. -/
def isCommand : Instr → Bool
  | .config _ | .decode _ => true
  | .chkLen | .chkHdr | .chkEnd | .asm | .dropHdr | .ext => false
  | .extCh0 | .extCh1 | .extCh2 | .extCh3 | .extCh4 | .extCh5 | .extCh6 | .extCh7 => false
  | .extCh8 | .extCh9 | .extCh10 | .extCh11 | .extCh12 | .extCh13 | .extCh14 | .extCh15 => false
  | .flgFs | .flgFl | .flgCh18 | .flgCh17 | .emit => false

/-- The error of a frame: the first check it fails, with what that check records (60_exceptions.md R201 to R203, R207). -/
def FrameError (frame : List Byte) (e : BlockError) : Prop :=
  (frame.length ≠ 25 ∧ e = .wrongLength 25 frame.length) ∨
  (frame.length = 25 ∧ octetAt frame 0 ≠ 0x0F ∧ e = .wrongHeader 0x0F (octetAt frame 0).toNat) ∨
  (frame.length = 25 ∧ octetAt frame 0 = 0x0F ∧ octetAt frame 24 ≠ 0x00 ∧
    e = .wrongEndByte 0x00 (octetAt frame 24).toNat)

/-- Every octet of the frame buffer reads in `t` as it read in `s` (20_memory.md R52). -/
abbrev SameOctets (s t : State) : Prop := ∀ a, t.mem.read a = s.mem.read a

/-- What no command and no phase of the block touches: the parameters, the host and what is still to be taken. -/
structure SameOutside (s t : State) : Prop where
  params : t.params = s.params
  reader : t.reader = s.reader
  inbox  : t.inbox = s.inbox

/-- `i` is the extractor of channel `k` (42_unpack.md R134 to R149): with the checks passed it fills slot `k` when
`k < NCH` and else does nothing; the value is `(MemRead(a, n) >> sh) & 0x7FF`, is what the formula `octets` makes of the
frame's octets, and is `F[18+11k : 8+11k]`. -/
def ExtractsChannel (i : Instr) (k a n sh : Nat) (octets : (Nat → Nat) → Nat) : Prop :=
  ∀ (s : State) (t : Txn) (c : Fin 17) (frame : List Byte), s.Decoding t c frame .checked → frame.length = 25 →
    ∃ (v : Chan) (m : Nat),
      exec i s = .next (if k < c.val then s.withTxn { t with ch := t.ch.setIfInBounds k (some v) } else s) ∧
      s.mem.readLE a n = some m ∧ v.toNat = (m >>> sh) &&& 0x7FF ∧
      v.toNat = octets (fun j => (octetAt frame j).toNat) ∧
      v.toNat = (frameInt frame >>> (8 + 11 * k)) % 2 ^ 11

/-- A step that went on. A run has gone wrong where a command was refused (70_reset_and_hazards.md R242); a DecodeError or a
ConfigError is a result, not a run gone wrong. -/
abbrev Went (o : Answer) : Prop := ∃ s, o = .next s

/-- The step takes a reset (70_reset_and_hazards.md R230). -/
def State.takesReset (s : State) : Bool := (readerMove s.reader s.result).isNone && s.resetAsserted

end Sys2Proof.Machine
end

