-- ==== Sys2Proof/Certificates/Slice0/Obligations.lean ====
section
/-! DEFINITION. The statements for the provers. Each docstring names the rule of spec/ it formalises, and says where that
rule is an inference the spec marks as its own (derived) or its own decision (92_eei_decisions.md). -/

open Sys2Proof Sys2Proof.Machine

/-! ### CONFIG and the refusals -/

/-- 40_commands.md R100, R101, R102, 60_exceptions.md R205: CONFIG from UNCONFIGURED with an operand in 0 to 16 sets NCH
and READY; with any other operand it raises ConfigError(0, 16, operand), goes to CFG_FAULT and leaves NCH as it is; an
omitted operand is 16; unless UNCONFIGURED it is refused. Nothing else changes but the result ports. CFG_FAULT, the
refusal and what a ConfigError records are the spec's own decisions D5, D7, D10; no command in progress is
70_reset_and_hazards.md R236. -/
def Obligations.ConfigSetsCountOnceOrFails : Prop :=
  ∀ (n : Option Int) (s : State), s.txn = none →
    exec (.config none) s = exec (.config (some 16)) s ∧
    (s.cfg = .unconfigured → 0 ≤ configValue n → configValue n ≤ 16 →
      ∃ (t : State) (c : Fin 17), exec (.config n) s = .next t ∧ (c.val : Int) = configValue n ∧
        t.cfg = .ready ∧ t.nch = some c ∧ t.txn = none ∧ SameOctets s t ∧ SameOutside s t) ∧
    (s.cfg = .unconfigured → (configValue n < 0 ∨ 16 < configValue n) →
      ∃ t : State, exec (.config n) s = .next t ∧ t.result = some (.err (.configError 0 16 (configValue n))) ∧
        t.cfg = .cfgFault ∧ t.nch = s.nch ∧ t.txn = none ∧ SameOctets s t ∧ SameOutside s t) ∧
    (s.cfg ≠ .unconfigured → exec (.config n) s = .refused .configNotUnconfigured)

/-- 60_exceptions.md R212, 40_commands.md R106, the spec's own decisions D7, D8: a DECODE unless READY and a CONFIG
unless UNCONFIGURED are refused, whatever their operands; a refusal answers no state at all, so it produces no result
and changes nothing. The reason is the one of its own where no command is in progress. -/
def Obligations.CommandsRefusedOutOfTurn : Prop :=
  ∀ s : State,
    (∀ frame : List Byte, s.cfg ≠ .ready →
      ∃ r, exec (.decode frame) s = .refused r ∧ (s.txn = none → r = .decodeNotReady)) ∧
    (∀ n : Option Int, s.cfg ≠ .unconfigured →
      ∃ r, exec (.config n) s = .refused r ∧ (s.txn = none → r = .configNotUnconfigured))

/-- 70_reset_and_hazards.md R236, 41_validate.md R123, 42_unpack.md R133, 10_state.md R27, the model's reading (log
entries 4, 11, 12, 17): a command presented while another is in progress is refused, a phase is refused where no DECODE
is in progress or where it stands before the checks it follows, EXT is refused at IDX = NCH, and a phase whose operand
holds no value is refused: DROPHDR without F, EXT without ACC or IDX, EMIT without a slot below NCH or a flag. -/
def Obligations.CommandsAndPhasesRefusedOutOfPlace : Prop :=
  ∀ (i : Instr) (s : State),
    (isCommand i = true → s.txn ≠ none → exec i s = .refused .commandInProgress) ∧
    (isCommand i = false → s.txn = none → exec i s = .refused .noTransaction) ∧
    (∀ (t : Txn) (n : Fin 17) (frame : List Byte) (st : Stage), s.Decoding t n frame st →
      (isCommand i = false → i ∉ checkPhases → st ≠ .checked → exec i s = .refused .phaseOutOfPlace) ∧
      (st ≠ .opened → exec .chkLen s = .refused .phaseOutOfPlace) ∧
      (st ≠ .lenOk → exec .chkHdr s = .refused .phaseOutOfPlace) ∧
      (st ≠ .hdrOk → exec .chkEnd s = .refused .phaseOutOfPlace) ∧
      (∀ (a : BitVec 192) (k : BitVec 5), st = .checked → t.acc = some a → t.idx = some k → n.val ≤ k.toNat →
        exec .ext s = .refused .phaseOutOfPlace) ∧
      (st = .checked → t.f = none → exec .dropHdr s = .refused .operandWithoutValue) ∧
      (st = .checked → (t.acc = none ∨ t.idx = none) → exec .ext s = .refused .operandWithoutValue) ∧
      (st = .checked → ((∃ (k : Nat) (h : k < 16), k < n.val ∧ t.ch[k] = none) ∨ t.failsafe = none ∨ t.frameLost = none ∨
        t.ch18 = none ∨ t.ch17 = none) → exec .emit s = .refused .operandWithoutValue))

/-! ### DECODE -/

/-- 40_commands.md R104, which the spec marks as derived and calls its normative meaning (R107): DECODE in closed form,
for every frame of every length. -/
def Obligations.DecodeHasItsClosedForm : Prop :=
  ∀ (frame : List Byte) (n : Fin 17) (s : State), s.Ready n →
    ∃ t : State, exec (.decode frame) s = .next t ∧ t.result = some (decodeResult n.val frame)

/-- 40_commands.md R103 (State written: none), 20_memory.md R52, 10_state.md R35: what a DECODE leaves unchanged, on
states that meet the invariant. -/
def Obligations.DecodeChangesOnlyTheResult : Prop :=
  ∀ (frame : List Byte) (s t : State), s.Inv → exec (.decode frame) s = .next t →
    t.cfg = s.cfg ∧ t.nch = s.nch ∧ t.txn = s.txn ∧ SameOctets s t ∧ SameOutside s t

/-- 60_exceptions.md R207, 41_validate.md R123: exactly one outcome is reported, in the order length, header, end byte.
-/
def Obligations.FirstFailureIsReported : Prop :=
  ∀ (frame : List Byte) (n : Fin 17) (s : State), s.Ready n →
    ∃ t : State, exec (.decode frame) s = .next t ∧
      (frame.length ≠ 25 → t.result = some (.err (.wrongLength 25 frame.length))) ∧
      (frame.length = 25 → octetAt frame 0 ≠ 0x0F →
        t.result = some (.err (.wrongHeader 0x0F (octetAt frame 0).toNat))) ∧
      (frame.length = 25 → octetAt frame 0 = 0x0F → octetAt frame 24 ≠ 0x00 →
        t.result = some (.err (.wrongEndByte 0x00 (octetAt frame 24).toNat))) ∧
      (frame.length = 25 → octetAt frame 0 = 0x0F → octetAt frame 24 = 0x00 → ∃ d, t.result = some (.ok d))

/-- 41_validate.md R124, 30_encoding.md R79: a DECODE on a READY instance succeeds exactly on length 25, header `0x0F`
and end `0x00`, which is `len = 25` and `F & MASK = MATCH`. -/
def Obligations.AcceptedExactlyTheValidFrames : Prop :=
  ∀ (frame : List Byte) (n : Fin 17) (s : State), s.Ready n →
    ∃ t : State, exec (.decode frame) s = .next t ∧
      ((∃ d, t.result = some (.ok d)) ↔ frame.length = 25 ∧ octetAt frame 0 = 0x0F ∧ octetAt frame 24 = 0x00) ∧
      ((∃ d, t.result = some (.ok d)) ↔ ValidFrame frame)

/-- 20_memory.md R57 (derived): with a length other than 25 the content of the buffer plays no part in the answer. -/
def Obligations.WrongLengthReadsNoOctet : Prop :=
  (∀ (f g : List Byte) (s : State), f.length = g.length → f.length ≠ 25 → exec (.decode f) s = exec (.decode g) s) ∧
  (∀ (frame : List Byte) (n : Fin 17) (s : State), s.Ready n → frame.length ≠ 25 →
    ∃ t : State, exec (.decode frame) s = .next t ∧ t.result = some (.err (.wrongLength 25 frame.length)))

/-- 40_commands.md R108: the properties (a) to (f) of DECODE. -/
def Obligations.DecodeProperties : Prop :=
  ∀ (frame : List Byte) (n : Fin 17) (s : State), s.Ready n →
    ∃ t u : State, exec (.decode frame) s = .next t ∧ exec (.decode frame) t = .next u ∧ u.result = t.result ∧
      (frame.length = 25 → octetAt frame 0 = 0x0F → octetAt frame 24 = 0x00 →
        ∃ d, t.result = some (.ok d) ∧ d.channels.length = n.val ∧ ∀ v ∈ d.channels, v.toNat ≤ 2047) ∧
      (frame.length ≠ 25 → t.result = some (.err (.wrongLength 25 frame.length))) ∧
      (frame.length = 25 → octetAt frame 0 ≠ 0x0F →
        t.result = some (.err (.wrongHeader 0x0F (octetAt frame 0).toNat)))

/-- 40_commands.md R105, 60_exceptions.md R209: DECODE is a function of NCH and the frame; after a DECODE, successful or
failed, the instance is as ready as before and the next DECODE answers exactly as if it had been the first. -/
def Obligations.DecodeForgetsEarlierFrames : Prop :=
  ∀ (f g : List Byte) (n : Fin 17) (s u : State), s.Ready n → u.Ready n →
    ∃ t v : State, exec (.decode f) s = .next t ∧ exec (.decode f) u = .next v ∧ t.result = v.result ∧
      t.Ready n ∧ exec (.decode g) t = exec (.decode g) s

/-- 60_exceptions.md R204: a DECODE that ends in an error has the error of its frame as its result and no DecodedFrame,
changes neither CFG nor NCH, and nothing is saved: no transient value is left, and no octet of the frame. -/
def Obligations.DecodeErrorTakesNothingElse : Prop :=
  ∀ (frame : List Byte) (n : Fin 17) (s : State), s.Ready n → ¬ ValidFrame frame →
    ∃ (t : State) (e : BlockError), exec (.decode frame) s = .next t ∧ FrameError frame e ∧ t.result = some (.err e) ∧
      t.resError = some e ∧ t.resFrame = none ∧
      t.resCh = (fun _ => none) ∧ t.resFailsafe = none ∧ t.resFrameLost = none ∧ t.resCh18 = none ∧ t.resCh17 = none ∧
      t.cfg = s.cfg ∧ t.nch = s.nch ∧ t.txn = none ∧ t.mem = [] ∧ SameOutside s t

/-- 60_exceptions.md R200 to R203, R205: the errors there are, where each comes from and what it records: from DECODE,
or from its check phase, the error of the frame; from CONFIG, its operand. What a ConfigError records is the spec's own
decision D10; that a check phase ends the DECODE in a step of its own is log entry 1. -/
def Obligations.OnlyFourErrorsAreReported : Prop :=
  ∀ (i : Instr) (s t : State) (e : BlockError), s.Inv → s.result = none →
    exec i s = .next t → t.result = some (.err e) →
    (∃ frame, i = .decode frame ∧ FrameError frame e) ∨
    (∃ frame, s.txn.isSome ∧ s.mem = Memory.ofOctets frame ∧ FrameError frame e ∧
      ((i = .chkLen ∧ e = .wrongLength 25 frame.length) ∨
       (i = .chkHdr ∧ e = .wrongHeader 0x0F (octetAt frame 0).toNat) ∨
       (i = .chkEnd ∧ e = .wrongEndByte 0x00 (octetAt frame 24).toNat))) ∨
    (∃ n, i = .config n ∧ e = .configError 0 16 (configValue n) ∧ (configValue n < 0 ∨ 16 < configValue n))

/-! ### What the frame's bits do -/

/-- 30_encoding.md R72, R73 (derived): channel `i` of a valid frame is `F[18+11i : 8+11i]`, and the flags are bits 188
to 191 of F. -/
def Obligations.FieldsAreSlicesOfTheFrame : Prop :=
  ∀ (frame : List Byte) (n : Fin 17) (s : State), s.Ready n → ValidFrame frame →
    ∃ (t : State) (d : DecodedFrame), exec (.decode frame) s = .next t ∧ t.result = some (.ok d) ∧
      d.channels.length = n.val ∧
      (∀ i < n.val, ∃ v, d.channels[i]? = some v ∧ ∀ b < 11, v.getLsbD b = (frameInt frame).testBit (8 + 11 * i + b)) ∧
      d.failsafe = (frameInt frame).testBit 188 ∧ d.frameLost = (frameInt frame).testBit 189 ∧
      d.ch18 = (frameInt frame).testBit 190 ∧ d.ch17 = (frameInt frame).testBit 191

/-- 43_flags.md R164, 30_encoding.md R81 (derived): two frames of 25 octets that agree but for the unused nibble of
octet 23 and the fields of the channels at and above NCH are answered alike. -/
def Obligations.IgnoredBitsDoNotMatter : Prop :=
  ∀ (f g : List Byte) (n : Fin 17) (s : State), s.Ready n → f.length = 25 → g.length = 25 →
    (∀ b, (b < 8 + 11 * n.val ∨ 188 ≤ b) → (frameInt f).testBit b = (frameInt g).testBit b) →
    ∃ t u : State, exec (.decode f) s = .next t ∧ exec (.decode g) s = .next u ∧ t.result = u.result

/-- 43_flags.md R165 (derived): each flag is a function of its own bit of octet 23, the same under every channel count
and whatever the channel stream holds; every combination occurs, under every channel count. -/
def Obligations.FlagsAreIndependent : Prop :=
  (∀ (f g : List Byte) (n m : Fin 17) (s u : State), s.Ready n → u.Ready m → ValidFrame f → ValidFrame g →
    ∃ (s' u' : State) (d e : DecodedFrame), exec (.decode f) s = .next s' ∧ s'.result = some (.ok d) ∧
      exec (.decode g) u = .next u' ∧ u'.result = some (.ok e) ∧
      ((frameInt f).testBit 188 = (frameInt g).testBit 188 → d.failsafe = e.failsafe) ∧
      ((frameInt f).testBit 189 = (frameInt g).testBit 189 → d.frameLost = e.frameLost) ∧
      ((frameInt f).testBit 190 = (frameInt g).testBit 190 → d.ch18 = e.ch18) ∧
      ((frameInt f).testBit 191 = (frameInt g).testBit 191 → d.ch17 = e.ch17)) ∧
  (∀ (fs fl c18 c17 : Bool) (n : Fin 17) (s : State), s.Ready n →
    ∃ (frame : List Byte) (t : State) (d : DecodedFrame), exec (.decode frame) s = .next t ∧ t.result = some (.ok d) ∧
      d.failsafe = fs ∧ d.frameLost = fl ∧ d.ch18 = c18 ∧ d.ch17 = c17)

/-- 42_unpack.md R151 (derived): a channel is a function of its own eleven bits, and a change of bit `b` of lane `i`
changes channel `i` by exactly `2^b`. -/
def Obligations.LanesAreIndependent : Prop :=
  ∀ (f g : List Byte) (n : Fin 17) (s : State), s.Ready n → ValidFrame f → ValidFrame g →
    ∃ (t u : State) (d e : DecodedFrame), exec (.decode f) s = .next t ∧ t.result = some (.ok d) ∧
      exec (.decode g) s = .next u ∧ u.result = some (.ok e) ∧
      ∀ i < n.val, ∃ v w : Chan, d.channels[i]? = some v ∧ e.channels[i]? = some w ∧
        ((∀ b < 11, (frameInt f).testBit (8 + 11 * i + b) = (frameInt g).testBit (8 + 11 * i + b)) → v = w) ∧
        (∀ b < 11, (frameInt f).testBit (8 + 11 * i + b) = false → (frameInt g).testBit (8 + 11 * i + b) = true →
          (∀ j < 11, j ≠ b → (frameInt f).testBit (8 + 11 * i + j) = (frameInt g).testBit (8 + 11 * i + j)) →
          w.toNat = v.toNat + 2 ^ b)

/-- 30_encoding.md R93 (derived): PACK and DECODE with NCH = 16 are inverse: every choice of channels and flags comes
back, and every valid frame, its unused nibble cleared, is the PACK of what it decodes to. -/
def Obligations.PackAndDecodeAreInverse : Prop :=
  (∀ (c : Vector Chan 16) (fs fl c18 c17 : Bool) (s : State), s.Ready 16 →
    ∃ t : State, exec (.decode (pack c fs fl c18 c17)) s = .next t ∧
      t.result = some (.ok { channels := c.toList, failsafe := fs, frameLost := fl, ch17 := c17, ch18 := c18 })) ∧
  (∀ (frame : List Byte) (s : State), s.Ready 16 → ValidFrame frame →
    ∃ (t : State) (d : DecodedFrame) (h : d.channels.toArray.size = 16), exec (.decode frame) s = .next t ∧
      t.result = some (.ok d) ∧
      pack ⟨d.channels.toArray, h⟩ d.failsafe d.frameLost d.ch18 d.ch17 = clearUnused frame)

/-- 30_encoding.md R77 (the spec's own decision D2): with NCH = 16 the packed record is `F[191:188] ++ F[183:8]`. -/
def Obligations.OkWordIsTheFrameWithoutItsConstants : Prop :=
  ∀ (frame : List Byte) (s : State), s.Ready 16 → ValidFrame frame →
    ∃ (t : State) (d : DecodedFrame), exec (.decode frame) s = .next t ∧ t.result = some (.ok d) ∧
      d.okWord.toNat = (frameInt frame >>> 8) % 2 ^ 176 + 2 ^ 176 * ((frameInt frame >>> 188) % 2 ^ 4)

/-- 00_scope.md R14, 20_memory.md R53, R62 (derived): MemRead within the frame is the little-endian value of its octets,
which is a slice of F, whatever the width; beyond the frame it has no value. -/
def Obligations.FrameReadsAreSlicesOfTheFrame : Prop :=
  ∀ (frame : List Byte) (a n : Nat),
    (a + n ≤ frame.length → (Memory.ofOctets frame).readLE a n = some ((frameInt frame >>> (8 * a)) % 2 ^ (8 * n)) ∧
      (frameInt frame >>> (8 * a)) % 2 ^ (8 * n) =
        ((List.range n).map fun k => (octetAt frame (a + k)).toNat * 2 ^ (8 * k)).sum) ∧
    (frame.length < a + n → 0 < n → (Memory.ofOctets frame).readLE a n = none)

/-- 30_encoding.md R74 (derived), 20_memory.md R55: channel `i` by octets: two octets where its bit offset is 5 or less,
three where it is 6 or 7, which is so for channels 2, 5, 10 and 13. -/
def Obligations.ChannelsComeFromTwoOrThreeOctets : Prop :=
  ∀ (frame : List Byte) (i : Nat), frame.length = 25 → i < 16 →
    (chanShift i ≤ 5 → chanOctets i = 2) ∧ (5 < chanShift i → chanOctets i = 3) ∧
    (chanOctets i = 3 ↔ i = 2 ∨ i = 5 ∨ i = 10 ∨ i = 13) ∧
    ∃ m, (Memory.ofOctets frame).readLE (1 + 11 * i / 8) (chanOctets i) = some m ∧
      (chanOfInt (frameInt frame) i).toNat = (m >>> (11 * i % 8)) &&& 0x7FF

/-! ### The phases -/

/-- 41_validate.md R120: CHK.LEN. -/
def Obligations.ChkLenComparesTheLength : Prop :=
  ∀ (s : State) (t : Txn) (n : Fin 17) (frame : List Byte), s.Decoding t n frame .opened →
    ∃ u : State, exec .chkLen s = .next u ∧ u.cfg = s.cfg ∧ u.nch = s.nch ∧ SameOutside s u ∧
      (frame.length ≠ 25 → u.txn = none ∧ u.result = some (.err (.wrongLength 25 frame.length))) ∧
      (frame.length = 25 → u = s.withTxn { t with stage := .lenOk })

/-- 41_validate.md R121: CHK.HDR. -/
def Obligations.ChkHdrComparesTheHeader : Prop :=
  ∀ (s : State) (t : Txn) (n : Fin 17) (frame : List Byte), s.Decoding t n frame .lenOk → frame.length = 25 →
    ∃ u : State, exec .chkHdr s = .next u ∧ u.cfg = s.cfg ∧ u.nch = s.nch ∧ SameOutside s u ∧
      (octetAt frame 0 ≠ 0x0F → u.txn = none ∧ u.result = some (.err (.wrongHeader 0x0F (octetAt frame 0).toNat))) ∧
      (octetAt frame 0 = 0x0F → u = s.withTxn { t with stage := .hdrOk })

/-- 41_validate.md R122: CHK.END. -/
def Obligations.ChkEndComparesTheEndByte : Prop :=
  ∀ (s : State) (t : Txn) (n : Fin 17) (frame : List Byte), s.Decoding t n frame .hdrOk → frame.length = 25 →
    ∃ u : State, exec .chkEnd s = .next u ∧ u.cfg = s.cfg ∧ u.nch = s.nch ∧ SameOutside s u ∧
      (octetAt frame 24 ≠ 0x00 → u.txn = none ∧ u.result = some (.err (.wrongEndByte 0x00 (octetAt frame 24).toNat))) ∧
      (octetAt frame 24 = 0x00 → u = s.withTxn { t with stage := .checked })

/-- 42_unpack.md R130, R131: ASM makes F the integer of the 25 octets, below `2^192` with low octet 15 in a valid frame;
DROPHDR makes ACC `F >> 8` and IDX 0. -/
def Obligations.AsmAndDropHdrMakeTheAccumulator : Prop :=
  ∀ (s : State) (t : Txn) (n : Fin 17) (frame : List Byte), s.Decoding t n frame .checked → frame.length = 25 →
    ∃ f : BitVec 200, f.toNat = frameInt frame ∧ exec .asm s = .next (s.withTxn { t with f := some f }) ∧
      (octetAt frame 0 = 0x0F → octetAt frame 24 = 0x00 → f.toNat < 2 ^ 192 ∧ f.toNat % 256 = 15) ∧
      (∀ g, t.f = some g → ∃ a : BitVec 192, a.toNat = g.toNat >>> 8 ∧
        exec .dropHdr s = .next (s.withTxn { t with acc := some a, idx := some 0 }))

/-- 42_unpack.md R132: EXT takes the low 11 bits of ACC into slot IDX, shifts ACC right by 11 and adds 1 to IDX; and, as
the spec derives by induction on IDX from R131, where ACC is `F >> (8 + 11*IDX)` the value is `F[18 + 11*IDX : 8 +
11*IDX]` and ACC is `F >> (8 + 11*IDX)` again. -/
def Obligations.ExtTakesOneChannel : Prop :=
  ∀ (s : State) (t : Txn) (n : Fin 17) (frame : List Byte) (a : BitVec 192) (i : BitVec 5),
    s.Decoding t n frame .checked → t.acc = some a → t.idx = some i → i.toNat < n.val →
    ∃ (v : Chan) (b : BitVec 192) (j : BitVec 5),
      exec .ext s = .next (s.withTxn { t with ch := t.ch.setIfInBounds i.toNat (some v), acc := some b, idx := some j }) ∧
      v.toNat = a.toNat &&& 0x7FF ∧ b.toNat = a.toNat >>> 11 ∧ j.toNat = i.toNat + 1 ∧
      (a.toNat = frameInt frame >>> (8 + 11 * i.toNat) →
        v.toNat = (frameInt frame >>> (8 + 11 * i.toNat)) % 2 ^ 11 ∧ b.toNat = frameInt frame >>> (8 + 11 * j.toNat))

/-- 42_unpack.md R133: DROPHDR and NCH times EXT fill slots 0 to NCH - 1 with their channels in order and leave the
others as they were. -/
def Obligations.ExtRunsOncePerRetainedChannel : Prop :=
  ∀ (s : State) (t : Txn) (n : Fin 17) (frame : List Byte) (f : BitVec 200),
    s.Decoding t n frame .checked → frame.length = 25 → t.f = some f → f.toNat = frameInt frame →
    ∃ (u : State) (w : Txn), runPhases (exec .dropHdr s) (List.replicate n.val (exec .ext)) = .next u ∧
      u = s.withTxn w ∧ w.idx.map BitVec.toNat = some n.val ∧
      (∀ (i : Nat) (h : i < 16), w.ch[i] = if i < n.val then some (chanOfInt (frameInt frame) i) else t.ch[i])

/-- 42_unpack.md R134 to R141 (derived): the fixed extractors of channels 0 to 7. -/
def Obligations.ExtractorsOfChannels0To7 : Prop :=
  ExtractsChannel .extCh0 0 1 2 0 (fun o => o 1 ||| ((o 2 &&& 0x07) <<< 8)) ∧
  ExtractsChannel .extCh1 1 2 2 3 (fun o => (o 2 >>> 3) ||| ((o 3 &&& 0x3F) <<< 5)) ∧
  ExtractsChannel .extCh2 2 3 3 6 (fun o => (o 3 >>> 6) ||| (o 4 <<< 2) ||| ((o 5 &&& 0x01) <<< 10)) ∧
  ExtractsChannel .extCh3 3 5 2 1 (fun o => (o 5 >>> 1) ||| ((o 6 &&& 0x0F) <<< 7)) ∧
  ExtractsChannel .extCh4 4 6 2 4 (fun o => (o 6 >>> 4) ||| ((o 7 &&& 0x7F) <<< 4)) ∧
  ExtractsChannel .extCh5 5 7 3 7 (fun o => (o 7 >>> 7) ||| (o 8 <<< 1) ||| ((o 9 &&& 0x03) <<< 9)) ∧
  ExtractsChannel .extCh6 6 9 2 2 (fun o => (o 9 >>> 2) ||| ((o 10 &&& 0x1F) <<< 6)) ∧
  ExtractsChannel .extCh7 7 10 2 5 (fun o => (o 10 >>> 5) ||| (o 11 <<< 3))

/-- 42_unpack.md R142 to R149 (derived): the fixed extractors of channels 8 to 15. -/
def Obligations.ExtractorsOfChannels8To15 : Prop :=
  ExtractsChannel .extCh8 8 12 2 0 (fun o => o 12 ||| ((o 13 &&& 0x07) <<< 8)) ∧
  ExtractsChannel .extCh9 9 13 2 3 (fun o => (o 13 >>> 3) ||| ((o 14 &&& 0x3F) <<< 5)) ∧
  ExtractsChannel .extCh10 10 14 3 6 (fun o => (o 14 >>> 6) ||| (o 15 <<< 2) ||| ((o 16 &&& 0x01) <<< 10)) ∧
  ExtractsChannel .extCh11 11 16 2 1 (fun o => (o 16 >>> 1) ||| ((o 17 &&& 0x0F) <<< 7)) ∧
  ExtractsChannel .extCh12 12 17 2 4 (fun o => (o 17 >>> 4) ||| ((o 18 &&& 0x7F) <<< 4)) ∧
  ExtractsChannel .extCh13 13 18 3 7 (fun o => (o 18 >>> 7) ||| (o 19 <<< 1) ||| ((o 20 &&& 0x03) <<< 9)) ∧
  ExtractsChannel .extCh14 14 20 2 2 (fun o => (o 20 >>> 2) ||| ((o 21 &&& 0x1F) <<< 6)) ∧
  ExtractsChannel .extCh15 15 21 2 5 (fun o => (o 21 >>> 5) ||| (o 22 <<< 3))

/-- 43_flags.md R160 to R163: each flag phase writes its flag from its mask of octet 23, and nothing else. -/
def Obligations.FlagPhasesReadOctet23 : Prop :=
  ∀ (s : State) (t : Txn) (n : Fin 17) (frame : List Byte), s.Decoding t n frame .checked → frame.length = 25 →
    exec .flgFs s = .next (s.withTxn { t with failsafe := some ((octetAt frame 23 &&& 0x10) != 0) }) ∧
    exec .flgFl s = .next (s.withTxn { t with frameLost := some ((octetAt frame 23 &&& 0x20) != 0) }) ∧
    exec .flgCh18 s = .next (s.withTxn { t with ch18 := some ((octetAt frame 23 &&& 0x40) != 0) }) ∧
    exec .flgCh17 s = .next (s.withTxn { t with ch17 := some ((octetAt frame 23 &&& 0x80) != 0) })

/-- 43_flags.md R166: EMIT delivers slots 0 to NCH - 1 in order and the four flags, and ends the DECODE; with NCH = 0
there are no channels. -/
def Obligations.EmitDeliversTheRecord : Prop :=
  ∀ (s : State) (t : Txn) (n : Fin 17) (frame : List Byte) (fs fl c18 c17 : Bool),
    s.Decoding t n frame .checked → (∀ (i : Nat) (h : i < 16), i < n.val → t.ch[i].isSome) →
    t.failsafe = some fs → t.frameLost = some fl → t.ch18 = some c18 → t.ch17 = some c17 →
    ∃ (u : State) (d : DecodedFrame), exec .emit s = .next u ∧ u.result = some (.ok d) ∧ u.txn = none ∧ u.mem = [] ∧
      u.cfg = s.cfg ∧ u.nch = s.nch ∧ SameOutside s u ∧
      d.channels.length = n.val ∧ (∀ (i : Nat) (h : i < 16), i < n.val → d.channels[i]? = t.ch[i]) ∧
      d.failsafe = fs ∧ d.frameLost = fl ∧ d.ch18 = c18 ∧ d.ch17 = c17 ∧ (n.val = 0 → d.channels = [])

/-- 10_state.md R20, R24, R26, 20_memory.md R52: what every phase leaves unchanged: CFG, NCH, the parameters and the
host always; and as long as the DECODE goes on, every octet of the frame, the result ports, `len`, and whatever
transient value is not the phase's own. -/
def Obligations.PhasesChangeOnlyTheirOwnValue : Prop :=
  ∀ (i : Instr) (s u : State), isCommand i = false → exec i s = .next u →
    u.cfg = s.cfg ∧ u.nch = s.nch ∧ SameOutside s u ∧
    (∀ w, u.txn = some w → SameOctets s u ∧ u.result = s.result ∧ ∃ t, s.txn = some t ∧ w.len = t.len ∧ w.todo = t.todo ∧
      (i ≠ .asm → w.f = t.f) ∧ (i ≠ .dropHdr → i ≠ .ext → w.acc = t.acc ∧ w.idx = t.idx) ∧
      (i ≠ .ext → i ∉ fixedExtractors → w.ch = t.ch) ∧
      (∀ k, fixedExtractors[k]? = some i → ∀ (j : Nat) (h : j < 16), j ≠ k → w.ch[j] = t.ch[j]) ∧
      (i ≠ .flgFs → w.failsafe = t.failsafe) ∧ (i ≠ .flgFl → w.frameLost = t.frameLost) ∧
      (i ≠ .flgCh18 → w.ch18 = t.ch18) ∧ (i ≠ .flgCh17 → w.ch17 = t.ch17) ∧
      (i ≠ .chkLen → i ≠ .chkHdr → i ≠ .chkEnd → w.stage = t.stage))

/-- 20_memory.md R50, R57 (derived), 00_scope.md R14, 60_exceptions.md R204; the fault is the model's (log entry 6):
from a state that meets the invariant no step and no instruction ends in a fault; and from any state a fault comes from
a phase only, and only where it reads an octet that does not exist. -/
def Obligations.NoStepFaults : Prop :=
  (∀ (s : State) (r : Fault), s.Inv → step s ≠ .fault r) ∧
  (∀ (i : Instr) (s : State) (r : Fault), s.Inv → exec i s ≠ .fault r) ∧
  (∀ (i : Instr) (s : State) (r : Fault), exec i s = .fault r →
    isCommand i = false ∧ ∃ a n, r = .outsideFrame a n ∧ s.mem.readLE a n = none)

/-! ### Decoding and encoding -/

/-- 30_encoding.md R76, R79, 10_state.md R31: every instruction that has ports and can be presented comes back from its
ports, and the ports that give an instruction are its own but for the ports the command does not look at. -/
def Obligations.PortsAndInstructionsAgree : Prop :=
  (∀ (p : Params) (i : Instr) (c : Ports), WellFormed p i → encodePorts p i = some c → decodePorts p c = .instr i) ∧
  (∀ (p : Params) (i : Instr), (encodePorts p i).isSome = isCommand i) ∧
  (∀ (p : Params) (c : Ports) (i : Instr), decodePorts p c = .instr i →
    WellFormed p i ∧ ∃ e, encodePorts p i = some e ∧ e.cmd = c.cmd ∧
      (c.cmd = 0 → e.cfgN = c.cfgN) ∧ (c.cmd = 1 → e.frame = c.frame))

/-- 95_test_vectors.md P1 to P3, 30_encoding.md R72: a few words written out from the spec decode to what they stand
for. -/
def Obligations.SomeWordsDecode : Prop :=
  decodeTableWord 8 0x06 = some (.config (some 6)) ∧
  decodeTableWord 8 0x11 = some (.config (some 17)) ∧
  decodeTableWord 8 0xFF = some (.config (some (-1))) ∧
  decodePorts Params.default { cmd := 0, cfgN := none, frame := [] } = .instr (.config none) ∧
  decodeTableWord 200 0x7C0F837F3E07C0F12263E00F = some (.decode
    [0x0F, 0xE0, 0x63, 0x22, 0xF1, 0xC0, 0x07, 0x3E, 0x7F, 0x83, 0x0F, 0x7C, 0x00, 0x00, 0x00, 0x00, 0x00, 0x00, 0x00,
     0x00, 0x00, 0x00, 0x00, 0x00, 0x00]) ∧
  phasesOf .accumulator 3 = [.chkLen, .chkHdr, .chkEnd, .asm, .dropHdr, .ext, .ext, .ext, .flgFs, .flgFl, .flgCh18,
    .flgCh17, .emit]

/-! ### The step -/

/-- 30_encoding.md R79, 92_eei_decisions.md D1, D14, the model's reading of a step (log entries 1, 2, 8): a step runs
the instruction the presented ports decode to, on the state with that input taken; in the two forms that go phase by
phase a DECODE is opened instead. -/
def Obligations.StepRunsTheDecodedInstruction : Prop :=
  ∀ (i : Instr) (c : Ports) (s : State) (rest : List Input),
    readerMove s.reader s.result = none → s.txn = none → s.inbox = .command c :: rest →
    decodePorts s.params c = .instr i →
    (s.params.form = .transaction → step s = exec i (s.taken rest)) ∧
    ((∀ frame, i ≠ .decode frame) → step s = exec i (s.taken rest)) ∧
    (∀ frame, i = .decode frame → s.params.form ≠ .transaction → step s = openTxn s.params.form frame (s.taken rest))

/-- 40_commands.md R103, the model's reading of the phased forms (log entry 1): while a DECODE is in progress and no
reset is asserted, a step runs its next phase. -/
def Obligations.StepRunsTheNextPhase : Prop :=
  ∀ (i : Instr) (t : Txn) (todo : List Instr) (s : State),
    readerMove s.reader s.result = none → s.txn = some t → t.todo = i :: todo → s.resetAsserted = false →
    step s = exec i ((s.taken s.inbox).withTxn { t with todo := todo })

/-- 40_commands.md R107 (derived; the spec's own decision D14), one phase a step (log entry 1): the accumulator form and
the form with sixteen fixed extractors, run phase by phase, reach exactly the state the atomic DECODE reaches, for every
frame and every channel count, in at most 27 steps. -/
def Obligations.PhasedFormsRefineTheTransaction : Prop :=
  ∀ (frame : List Byte) (n : Fin 17) (s : State) (rest : List Input),
    s.Ready n → s.params.form ≠ .transaction → frame.length ≤ s.params.lenMax →
    readerMove s.reader s.result = none → readerMove s.reader none = none →
    s.inbox = decodeInput frame :: rest → rest.head? ≠ some .rst →
    ∃ (k : Nat) (t : State), k ≤ 27 ∧ Host.Core.run Sys2Proof.core k s = .next t ∧
      exec (.decode frame) (s.taken rest) = .next t

/-- 10_state.md R33, 70_reset_and_hazards.md R230 (the spec's own decision D6), R231; the idle step is log entry 16:
what reset leaves, and that the block does nothing until a command is presented. -/
def Obligations.ResetIsUnconfiguredAndWaits : Prop :=
  State.reset.cfg = .unconfigured ∧ State.reset.nch = none ∧ State.reset.txn = none ∧ State.reset.result = none ∧
  (∀ s : State, readerMove s.reader s.result = none → s.txn = none → s.inbox = [] →
    ∃ t : State, step s = .next t ∧ t.cfg = s.cfg ∧ t.nch = s.nch ∧ t.txn = none ∧ SameOctets s t ∧ SameOutside s t)

/-- 70_reset_and_hazards.md R230 (the spec's own decision D6; its place among the inputs is log entry 14): reset
asserted makes a new, unconfigured instance from any state, abandons a transaction without a result, and nothing else
leaves READY or CFG_FAULT or changes NCH there (10_state.md R21, 60_exceptions.md R210). -/
def Obligations.OnlyResetLeavesAConstructedInstance : Prop :=
  ∀ s : State,
    (∀ rest, readerMove s.reader s.result = none → s.inbox = .rst :: rest →
      ∃ t : State, step s = .next t ∧ t.cfg = .unconfigured ∧ t.nch = none ∧ t.txn = none ∧ t.mem = [] ∧ t.result = none ∧
        t.params = s.params ∧ t.inbox = rest) ∧
    (∀ t, step s = .next t → s.takesReset = false → s.cfg ≠ .unconfigured → t.cfg = s.cfg ∧ t.nch = s.nch)

/-- 10_state.md R33: reset meets the machine's invariant. -/
def Obligations.ResetMeetsTheInvariant : Prop := State.reset.Inv

/-- 10_state.md R20 to R27, 20_memory.md R50: every step keeps the machine's invariant, from every state that meets it.
-/
def Obligations.StepKeepsTheInvariant : Prop :=
  ∀ s t : State, s.Inv → step s = .next t → t.Inv

/-- 00_scope.md R10, 92_eei_decisions.md D3, D4: no step changes the parameters, and with parameters the spec allows a
well-formed command is never turned away at the ports. -/
def Obligations.ParametersAreFixed : Prop :=
  (∀ s t : State, step s = .next t → t.params = s.params) ∧
  (∀ (s : State) (i : Instr) (c : Ports), WellFormed s.params i → encodePorts s.params i = some c →
    ∀ r, runCommand c s ≠ .refused (.notPresentable r))

/-! ### The ports -/

/-- 70_reset_and_hazards.md R237, 10_state.md R27, R31, the spec's own decisions D11, D12: after a successful DECODE the slots
below NCH and the four flag ports hold the record's values, and the slots at and above NCH and the error fields hold none;
after a failed one the error fields hold the error's values, and no slot and no flag holds one. That `err_kind` is among the
error fields that hold no value beside a success, although R78 and R206 have code 0 there, is log entry 29. -/
def Obligations.AbsentOutputsHoldNoValue : Prop :=
  ∀ (frame : List Byte) (n : Fin 17) (s : State), s.Ready n →
    ∃ t : State, exec (.decode frame) s = .next t ∧
      (ValidFrame frame → ∃ d, t.result = some (.ok d) ∧ t.resOk = some true ∧ d.channels.length = n.val ∧
        (∀ i < n.val, ∃ v, d.channels[i]? = some v ∧ t.resCh i = some v) ∧ (∀ i, n.val ≤ i → t.resCh i = none) ∧
        t.resFailsafe = some d.failsafe ∧ t.resFrameLost = some d.frameLost ∧ t.resCh18 = some d.ch18 ∧
        t.resCh17 = some d.ch17 ∧ t.errKind = none ∧ t.errExpected = none ∧ t.errActual = none) ∧
      (¬ ValidFrame frame → ∃ (e : BlockError) (x a : Nat), FrameError frame e ∧ t.result = some (.err e) ∧
        (e = .wrongLength x a ∨ e = .wrongHeader x a ∨ e = .wrongEndByte x a) ∧ t.resOk = some false ∧
        t.errKind = some e.code ∧ t.errExpected = some x ∧ t.errActual = some (a : Int) ∧
        (∀ i, t.resCh i = none) ∧ t.resFailsafe = none ∧ t.resFrameLost = none ∧ t.resCh18 = none ∧ t.resCh17 = none)

/-- 60_exceptions.md R206, 10_state.md R22 (the spec's own decisions D5, D9): the codes on the ports, that `err_kind` holds
the code of the error record on the ports and no value without one (log entry 29), and that no other code is ever
produced. -/
def Obligations.PortCodesAreTheSpecs : Prop :=
  (∀ e a, (BlockError.wrongLength e a).code = 1 ∧ (BlockError.wrongHeader e a).code = 2 ∧
    (BlockError.wrongEndByte e a).code = 3) ∧
  (∀ lo hi a, (BlockError.configError lo hi a).code = 4) ∧
  (kindCode none = 0 ∧ ∀ e, kindCode (some e) = e.code) ∧
  (∀ s : State, (∀ e, s.result = some (.err e) → s.errKind = some e.code) ∧
    ((∀ e, s.result ≠ some (.err e)) → s.errKind = none)) ∧
  (∀ s : State, s.errKind ≠ some 5 ∧ s.errKind ≠ some 6 ∧ s.errKind ≠ some 7 ∧ s.cfgState ≠ 3) ∧
  (∀ (s : State) (k : BitVec 5), s.cfgNch = some k → s.cfgState = 1 ∧ k.toNat ≤ 16)

/-! ### The host's FrameReader -/

/-- 44_host_frame_reader.md R174, R175, R177, R179: what the reader does when a READ returns: an empty read logs a
warning and stays in the session; 1 to 25 octets are presented with DECODE; a transport error is logged and ends the
session. That 1 to 24 octets go to DECODE is the spec's own decision D26; that the command stands in front of the
waiting inputs is log entry 18. -/
def Obligations.ReadOutcomesSelectTheNextMove : Prop :=
  ∀ (s : State) (o : ReadOutcome) (rest : List Input),
    s.reader.phase = .reading → s.txn = none → s.inbox = .event (.readReturned o) :: rest →
    (o = .octets [] → ∃ t : State, step s = .next t ∧ t.reader.phase = .innerTop ∧
      t.reader.sessionOpen = s.reader.sessionOpen ∧ t.inbox = rest ∧
      t.reader.effects = s.reader.effects ++ [.logWarning s.reader.address s.reader.timeout]) ∧
    (∀ bs, o = .octets bs → 0 < bs.length → bs.length ≤ 25 → ∃ t : State, step s = .next t ∧
      t.reader.phase = .decoding ∧ t.reader.effects = s.reader.effects ∧ t.inbox = decodeInput bs :: rest) ∧
    (o = .transportError → ∃ t : State, step s = .next t ∧ t.reader.phase = .closing ∧ t.inbox = rest ∧
      t.reader.effects = s.reader.effects ++ [.logError .transportError])

/-- 44_host_frame_reader.md R177, R178: a DecodedFrame is handed to the sink; a DecodeError is logged and ends the
session, and its frame never reaches the sink. That the very next step is the reader's, whatever inputs wait, is log
entry 18. -/
def Obligations.DecodeAnswerIsDispatchedOrLogged : Prop :=
  ∀ s : State, s.reader.phase = .decoding →
    (∀ d, s.result = some (.ok d) → ∃ t : State, step s = .next t ∧ t.reader.phase = .dispatching ∧
      t.reader.effects = s.reader.effects ++ [.dispatched d]) ∧
    (∀ e, s.result = some (.err e) → ∃ t : State, step s = .next t ∧ t.reader.phase = .closing ∧
      t.reader.effects = s.reader.effects ++ [.logError (.decodeFailure e)])

/-- 44_host_frame_reader.md R172, R180, R183, R187: the ends of the loops: a session is closed if open, and followed by
one backoff sleep exactly when `enabled` and RETRY hold; the outer loop opens a session exactly when `enabled` and
either it is the first or RETRY holds, and else the reader stops; the inner loop reads exactly while `enabled`. That the
first session does not ask for RETRY is the spec's own decision D22. An OPEN names address, baud, data bits, parity,
stop bits, timeout. That the next step is the reader's, even with a reset or a flip of `enabled` waiting, is log entry
18. -/
def Obligations.LoopsFollowTheFlags : Prop :=
  ∀ s : State,
    (s.reader.phase = .closing → ∃ t : State, step s = .next t ∧ t.reader.sessionOpen = false ∧
      (s.reader.enabled = true ∧ s.reader.retry = true → t.reader.phase = .sleeping ∧
        t.reader.effects = s.reader.effects ++ (if s.reader.sessionOpen then [.closed] else []) ++ [.slept 1]) ∧
      (¬ (s.reader.enabled = true ∧ s.reader.retry = true) → t.reader.phase = .outerTop false ∧
        t.reader.effects = s.reader.effects ++ (if s.reader.sessionOpen then [.closed] else []))) ∧
    (∀ first, s.reader.phase = .outerTop first → ∃ t : State, step s = .next t ∧
      (s.reader.enabled = true ∧ (first = true ∨ s.reader.retry = true) → t.reader.phase = .opening ∧
        t.reader.effects = s.reader.effects ++
          [.opened ⟨s.reader.address, 100000, 8, s.reader.parity, 2, s.reader.timeout⟩]) ∧
      (¬ (s.reader.enabled = true ∧ (first = true ∨ s.reader.retry = true)) →
        t.reader.phase = .stopped .normal ∧ t.reader.effects = s.reader.effects)) ∧
    (s.reader.phase = .innerTop → ∃ t : State, step s = .next t ∧
      (s.reader.enabled = true → t.reader.phase = .reading ∧ t.reader.effects = s.reader.effects ++ [.read 25]) ∧
      (s.reader.enabled = false → t.reader.phase = .closing ∧ t.reader.effects = s.reader.effects))

/-- 44_host_frame_reader.md R171, R172, R177, R179, R180, R182: what each event of the host contract does to the reader,
and that it does nothing else but clear the result ports: OPEN succeeds or fails, the sink returns or fails, the backoff
ends, `enabled` is flipped in any phase. Events as inputs are log entries 2 and 18, no log line on a failed OPEN log
entry 20, no CLOSE on a sink failure log entry 21. -/
def Obligations.HostEventsMoveTheReader : Prop :=
  ∀ (s : State) (e : HostEvent) (rest : List Input), s.txn = none → s.inbox = .event e :: rest →
    (e = .openReturned true → s.reader.phase = .opening →
      step s = .next { s.taken rest with reader := { s.reader with sessionOpen := true, phase := .innerTop } }) ∧
    (e = .openReturned false → s.reader.phase = .opening →
      step s = .next { s.taken rest with reader := { s.reader with phase := .closing } }) ∧
    (e = .sinkReturned true → s.reader.phase = .dispatching →
      step s = .next { s.taken rest with reader := { s.reader with phase := .innerTop } }) ∧
    (e = .sinkReturned false → s.reader.phase = .dispatching →
      step s = .next { s.taken rest with reader := { s.reader with phase := .stopped .sinkFailure } }) ∧
    (e = .sleepEnded → s.reader.phase = .sleeping →
      step s = .next { s.taken rest with reader := { s.reader with phase := .outerTop false } }) ∧
    (∀ b, e = .setEnabled b → readerMove s.reader s.result = none →
      step s = .next { s.taken rest with reader := { s.reader with enabled := b } })

/-- 44_host_frame_reader.md R171, R185, 60_exceptions.md R205, R217: a reader is constructed with its configuration,
`enabled` and RETRY true and TIMEOUT 1 where omitted, and presents n_chans with CONFIG; when that is accepted it comes
to the top of its outer loop for the first time, and a ConfigError stops it. Inputs and the reader's place before them
are log entries 2 and 18, a start after a stop is log entries 27 and 31. -/
def Obligations.ConstructionPresentsConfig : Prop :=
  ∀ s : State,
    (∀ (c : ReaderConfig) (rest : List Input), s.txn = none →
      (s.reader.phase = .absent ∨ ∃ why, s.reader.phase = .stopped why) → s.inbox = .event (.start c) :: rest →
      WellFormed s.params (.config c.nChans) →
      ∃ (t : State) (p : Ports), step s = .next t ∧ t.inbox = .command p :: rest ∧
        decodePorts s.params p = .instr (.config c.nChans) ∧ t.cfg = s.cfg ∧ t.nch = s.nch ∧
        t.reader.address = c.address ∧ t.reader.nChans = c.nChans ∧ t.reader.parity = c.parity ∧
        (∀ b, c.enabled = some b → t.reader.enabled = b) ∧ (c.enabled = none → t.reader.enabled = true) ∧
        (∀ b, c.retry = some b → t.reader.retry = b) ∧ (c.retry = none → t.reader.retry = true) ∧
        (∀ d, c.timeout = some d → t.reader.timeout = d) ∧ (c.timeout = none → t.reader.timeout = 1) ∧
        t.reader.phase = .constructing ∧ t.reader.sessionOpen = false ∧ t.reader.effects = s.reader.effects) ∧
    (s.reader.phase = .constructing → s.result = some .accepted →
      step s = .next { s.taken s.inbox with reader := { s.reader with phase := .outerTop true } }) ∧
    (∀ lo hi v, s.reader.phase = .constructing → s.result = some (.err (.configError lo hi v)) →
      step s = .next { s.taken s.inbox with reader := { s.reader with phase := .stopped .configError } })

/-- 44_host_frame_reader.md R186, in general form: any number of empty reads followed by a valid frame give one warning
each and exactly one dispatched frame in the same session; a frame with a bad header is logged, the session closed, one
backoff slept and a new session opened, with nothing dispatched. -/
def Obligations.ReaderScenarios : Prop :=
  ∀ (s : State) (n : Fin 17) (frame : List Byte), s.Ready n → s.params.form = .transaction → 25 ≤ s.params.lenMax →
    s.reader.phase = .reading → s.reader.enabled = true →
    (∀ k, ValidFrame frame → s.inbox = List.replicate k (.event (.readReturned (.octets []))) ++
        [.event (.readReturned (.octets frame))] →
      ∃ (m : Nat) (t : State), Host.Core.run Sys2Proof.core m s = .next t ∧ t.reader.phase = .dispatching ∧
        t.reader.sessionOpen = s.reader.sessionOpen ∧
        t.reader.effects = s.reader.effects ++
          (List.replicate k [Effect.logWarning s.reader.address s.reader.timeout, Effect.read 25]).flatten ++
          [.dispatched (decodedFrame n.val frame)]) ∧
    (s.reader.retry = true → s.reader.sessionOpen = true → frame.length = 25 → octetAt frame 0 ≠ 0x0F →
      s.inbox = [.event (.readReturned (.octets frame)), .event .sleepEnded] →
      ∃ (m : Nat) (t : State), Host.Core.run Sys2Proof.core m s = .next t ∧ t.reader.phase = .opening ∧
        t.reader.effects = s.reader.effects ++
          [.logError (.decodeFailure (.wrongHeader 0x0F (octetAt frame 0).toNat)), .closed, .slept 1,
            .opened s.reader.openParams])
end

