-- ==== Sys2Proof/Laws/Memory.lean ====
section
/-! SUPPORT. The frame buffer: its canonical form, what an octet and a MemRead read, and the arithmetic of the frame's
little-endian integer (00_scope.md R13, R14; 20_memory.md R53, R62). -/

namespace Sys2Proof.Machine

open Sys2Proof

/-! ### Canonical form -/

theorem Memory.le_of_mem_ofOctetsFrom {a : Nat} {bs : List Byte} {c : Host.Cell}
    (h : c ∈ Memory.ofOctetsFrom a bs) : a ≤ c.1 := by
  induction bs generalizing a with
  | nil => simp [Memory.ofOctetsFrom] at h
  | cons b bs ih =>
    rcases List.mem_cons.mp h with rfl | h
    · exact Nat.le_refl _
    · exact Nat.le_of_succ_le (ih h)

theorem Memory.ofOctetsFrom_wf (a : Nat) (bs : List Byte) : (Memory.ofOctetsFrom a bs).wf := by
  induction bs generalizing a with
  | nil => exact List.Pairwise.nil
  | cons b bs ih => exact List.Pairwise.cons (fun _ h => Memory.le_of_mem_ofOctetsFrom h) (ih (a + 1))

/-- Loading a frame gives the canonical form. -/
theorem Memory.ofOctets_wf (bs : List Byte) : (Memory.ofOctets bs).wf := Memory.ofOctetsFrom_wf 0 bs

/-- The empty frame buffer is in canonical form. -/
theorem Memory.nil_wf : Memory.wf [] := List.Pairwise.nil

/-- The frame buffer of reset is in canonical form. -/
theorem reset_mem_wf : State.reset.mem.wf := Memory.nil_wf

/-! ### One octet -/

@[simp] theorem Memory.read_nil (a : Nat) : Memory.read [] a = none := rfl

theorem Memory.read_ofOctetsFrom (a j : Nat) (bs : List Byte) :
    (Memory.ofOctetsFrom a bs).read (a + j) = bs[j]? := by
  induction bs generalizing a j with
  | nil => simp [Memory.ofOctetsFrom]
  | cons b bs ih =>
    cases j with
    | zero => simp [Memory.ofOctetsFrom, Memory.read]
    | succ j =>
      have h := ih (a + 1) j
      rw [show a + 1 + j = a + (j + 1) by omega] at h
      simp [Memory.ofOctetsFrom, Memory.read, h]

/-- The octet at offset `j` is octet `j` of the frame, and there is none at or beyond `len` (20_memory.md R50). -/
@[simp] theorem Memory.read_ofOctets (bs : List Byte) (j : Nat) : (Memory.ofOctets bs).read j = bs[j]? := by
  simpa [Memory.ofOctets] using Memory.read_ofOctetsFrom 0 j bs

theorem Memory.ofOctetsFrom_length (a : Nat) (bs : List Byte) : (Memory.ofOctetsFrom a bs).length = bs.length := by
  induction bs generalizing a with
  | nil => rfl
  | cons b bs ih => simp [Memory.ofOctetsFrom, ih]

/-- The frame buffer determines the frame. -/
theorem Memory.ofOctets_inj {bs cs : List Byte} (h : Memory.ofOctets bs = Memory.ofOctets cs) : bs = cs :=
  List.ext_getElem? fun j => by rw [← Memory.read_ofOctets, ← Memory.read_ofOctets, h]

/-! ### The integer of a frame -/

@[simp] theorem frameInt_nil : frameInt [] = 0 := rfl
@[simp] theorem frameInt_cons (b : Byte) (bs : List Byte) : frameInt (b :: bs) = b.toNat + 256 * frameInt bs := rfl

theorem frameInt_lt (bs : List Byte) : frameInt bs < 256 ^ bs.length := by
  induction bs with
  | nil => simp
  | cons b bs ih =>
    have hb := b.isLt
    rw [frameInt_cons, List.length_cons, Nat.pow_succ]
    omega

theorem frameInt_drop (a : Nat) (bs : List Byte) : frameInt (bs.drop a) = frameInt bs / 256 ^ a := by
  induction a generalizing bs with
  | zero => simp
  | succ a ih =>
    cases bs with
    | nil => simp
    | cons b bs =>
      have hb := b.isLt
      rw [List.drop_succ_cons, ih, frameInt_cons, Nat.pow_succ, Nat.mul_comm (256 ^ a), ← Nat.div_div_eq_div_mul]
      congr 1
      omega

theorem frameInt_take (n : Nat) (bs : List Byte) : frameInt (bs.take n) = frameInt bs % 256 ^ n := by
  induction n generalizing bs with
  | zero => simp [Nat.mod_one]
  | succ n ih =>
    cases bs with
    | nil => simp
    | cons b bs =>
      have hb := b.isLt
      rw [List.take_succ_cons, frameInt_cons, frameInt_cons, ih, Nat.pow_succ, Nat.mul_comm (256 ^ n), Nat.mod_mul,
        show (b.toNat + 256 * frameInt bs) / 256 = frameInt bs by omega]
      omega

/-- Octet `j` of a frame is bits `8*j` to `8*j + 7` of its integer (00_scope.md R13). -/
theorem octetAt_toNat (frame : List Byte) (j : Nat) : (octetAt frame j).toNat = frameInt frame / 256 ^ j % 256 := by
  rw [← frameInt_drop]
  rcases Nat.lt_or_ge j frame.length with h | h
  · have hb := (frame[j]).isLt
    rw [List.drop_eq_getElem_cons h, frameInt_cons]
    simp [octetAt, List.getElem?_eq_getElem h]
    omega
  · simp [octetAt, List.getElem?_eq_none h, List.drop_eq_nil_of_le h]

/-! ### MemRead -/

@[simp] theorem Memory.readLE_zero (m : Memory) (a : Nat) : m.readLE a 0 = some 0 := rfl

/-- MemRead within the frame is the integer of the octets it spans (00_scope.md R14). -/
theorem Memory.readLE_ofOctets (bs : List Byte) (a n : Nat) (h : a + n ≤ bs.length) :
    (Memory.ofOctets bs).readLE a n = some (frameInt ((bs.drop a).take n)) := by
  induction n generalizing a with
  | zero => simp
  | succ n ih =>
    have ha : a < bs.length := by omega
    rw [Memory.readLE, Memory.read_ofOctets, ih (a + 1) (by omega), List.getElem?_eq_getElem ha,
      List.drop_eq_getElem_cons ha, List.take_succ_cons]
    rfl

/-- MemRead within the frame is a slice of the frame's integer (20_memory.md R53, R62). -/
theorem Memory.readLE_ofOctets_eq (bs : List Byte) (a n : Nat) (h : a + n ≤ bs.length) :
    (Memory.ofOctets bs).readLE a n = some (frameInt bs / 256 ^ a % 256 ^ n) := by
  rw [Memory.readLE_ofOctets bs a n h, frameInt_take, frameInt_drop]

/-- MemRead beyond the frame has no value (00_scope.md R14). -/
theorem Memory.readLE_ofOctets_none (bs : List Byte) (a n : Nat) (h : bs.length < a + n) (hn : 0 < n) :
    (Memory.ofOctets bs).readLE a n = none := by
  induction n generalizing a with
  | zero => omega
  | succ n ih =>
    rw [Memory.readLE, Memory.read_ofOctets]
    rcases Nat.eq_zero_or_pos n with rfl | hn'
    · rw [List.getElem?_eq_none (by omega)]
    · rw [ih (a + 1) (by omega) hn']
      cases bs[a]? <;> rfl

end Sys2Proof.Machine
end

