-- ==== Sys2Proof/Laws/State.lean ====
section
/-! SUPPORT. One lemma per field per update of the state and of the reader, so that no proof unfolds a record update. -/

namespace Sys2Proof.Machine

open Sys2Proof

/-! ### `State.withTxn` -/

@[simp] theorem State.withTxn_params (s : State) (t : Txn) : (s.withTxn t).params = s.params := rfl
@[simp] theorem State.withTxn_cfg (s : State) (t : Txn) : (s.withTxn t).cfg = s.cfg := rfl
@[simp] theorem State.withTxn_nch (s : State) (t : Txn) : (s.withTxn t).nch = s.nch := rfl
@[simp] theorem State.withTxn_txn (s : State) (t : Txn) : (s.withTxn t).txn = some t := rfl
@[simp] theorem State.withTxn_mem (s : State) (t : Txn) : (s.withTxn t).mem = s.mem := rfl
@[simp] theorem State.withTxn_result (s : State) (t : Txn) : (s.withTxn t).result = s.result := rfl
@[simp] theorem State.withTxn_reader (s : State) (t : Txn) : (s.withTxn t).reader = s.reader := rfl
@[simp] theorem State.withTxn_inbox (s : State) (t : Txn) : (s.withTxn t).inbox = s.inbox := rfl

/-! ### `State.closeTxn` -/

@[simp] theorem State.closeTxn_params (s : State) : s.closeTxn.params = s.params := rfl
@[simp] theorem State.closeTxn_cfg (s : State) : s.closeTxn.cfg = s.cfg := rfl
@[simp] theorem State.closeTxn_nch (s : State) : s.closeTxn.nch = s.nch := rfl
@[simp] theorem State.closeTxn_txn (s : State) : s.closeTxn.txn = none := rfl
@[simp] theorem State.closeTxn_mem (s : State) : s.closeTxn.mem = [] := rfl
@[simp] theorem State.closeTxn_result (s : State) : s.closeTxn.result = s.result := rfl
@[simp] theorem State.closeTxn_reader (s : State) : s.closeTxn.reader = s.reader := rfl
@[simp] theorem State.closeTxn_inbox (s : State) : s.closeTxn.inbox = s.inbox := rfl

/-! ### `State.answer` -/

@[simp] theorem State.answer_params (s : State) (r : Result) : (s.answer r).params = s.params := rfl
@[simp] theorem State.answer_cfg (s : State) (r : Result) : (s.answer r).cfg = s.cfg := rfl
@[simp] theorem State.answer_nch (s : State) (r : Result) : (s.answer r).nch = s.nch := rfl
@[simp] theorem State.answer_txn (s : State) (r : Result) : (s.answer r).txn = s.txn := rfl
@[simp] theorem State.answer_mem (s : State) (r : Result) : (s.answer r).mem = s.mem := rfl
@[simp] theorem State.answer_result (s : State) (r : Result) : (s.answer r).result = some r := rfl
@[simp] theorem State.answer_reader (s : State) (r : Result) : (s.answer r).reader = s.reader := rfl
@[simp] theorem State.answer_inbox (s : State) (r : Result) : (s.answer r).inbox = s.inbox := rfl

/-! ### `State.raise` -/

@[simp] theorem State.raise_params (s : State) (e : BlockError) : (s.raise e).params = s.params := rfl
@[simp] theorem State.raise_cfg (s : State) (e : BlockError) : (s.raise e).cfg = s.cfg := rfl
@[simp] theorem State.raise_nch (s : State) (e : BlockError) : (s.raise e).nch = s.nch := rfl
@[simp] theorem State.raise_txn (s : State) (e : BlockError) : (s.raise e).txn = s.txn := rfl
@[simp] theorem State.raise_mem (s : State) (e : BlockError) : (s.raise e).mem = s.mem := rfl
@[simp] theorem State.raise_result (s : State) (e : BlockError) : (s.raise e).result = some (.err e) := rfl
@[simp] theorem State.raise_reader (s : State) (e : BlockError) : (s.raise e).reader = s.reader := rfl
@[simp] theorem State.raise_inbox (s : State) (e : BlockError) : (s.raise e).inbox = s.inbox := rfl

/-! ### `State.taken` -/

@[simp] theorem State.taken_params (s : State) (rest : List Input) : (s.taken rest).params = s.params := rfl
@[simp] theorem State.taken_cfg (s : State) (rest : List Input) : (s.taken rest).cfg = s.cfg := rfl
@[simp] theorem State.taken_nch (s : State) (rest : List Input) : (s.taken rest).nch = s.nch := rfl
@[simp] theorem State.taken_txn (s : State) (rest : List Input) : (s.taken rest).txn = s.txn := rfl
@[simp] theorem State.taken_mem (s : State) (rest : List Input) : (s.taken rest).mem = s.mem := rfl
@[simp] theorem State.taken_result (s : State) (rest : List Input) : (s.taken rest).result = none := rfl
@[simp] theorem State.taken_reader (s : State) (rest : List Input) : (s.taken rest).reader = s.reader := rfl
@[simp] theorem State.taken_inbox (s : State) (rest : List Input) : (s.taken rest).inbox = rest := rfl

/-! ### `State.resetBlock` -/

@[simp] theorem State.resetBlock_params (s : State) : s.resetBlock.params = s.params := rfl
@[simp] theorem State.resetBlock_cfg (s : State) : s.resetBlock.cfg = .unconfigured := rfl
@[simp] theorem State.resetBlock_nch (s : State) : s.resetBlock.nch = none := rfl
@[simp] theorem State.resetBlock_txn (s : State) : s.resetBlock.txn = none := rfl
@[simp] theorem State.resetBlock_mem (s : State) : s.resetBlock.mem = [] := rfl
@[simp] theorem State.resetBlock_result (s : State) : s.resetBlock.result = none := rfl
@[simp] theorem State.resetBlock_reader (s : State) : s.resetBlock.reader = s.reader.afterReset := rfl
@[simp] theorem State.resetBlock_inbox (s : State) : s.resetBlock.inbox = s.inbox := rfl

/-! ### `State.present` -/

@[simp] theorem State.present_params (s : State) (c : Ports) : (s.present c).params = Params.default := rfl
@[simp] theorem State.present_cfg (s : State) (c : Ports) : (s.present c).cfg = s.cfg := rfl
@[simp] theorem State.present_nch (s : State) (c : Ports) : (s.present c).nch = s.nch := rfl
@[simp] theorem State.present_txn (s : State) (c : Ports) : (s.present c).txn = none := rfl
@[simp] theorem State.present_mem (s : State) (c : Ports) : (s.present c).mem = [] := rfl
@[simp] theorem State.present_result (s : State) (c : Ports) : (s.present c).result = s.result := rfl
@[simp] theorem State.present_reader (s : State) (c : Ports) : (s.present c).reader = { s.reader with phase := .absent } := rfl
@[simp] theorem State.present_inbox (s : State) (c : Ports) : (s.present c).inbox = .command c :: s.inbox := rfl

/-! ### `Reader.emit` -/

@[simp] theorem Reader.emit_address (r : Reader) (e : Effect) : (r.emit e).address = r.address := rfl
@[simp] theorem Reader.emit_nChans (r : Reader) (e : Effect) : (r.emit e).nChans = r.nChans := rfl
@[simp] theorem Reader.emit_enabled (r : Reader) (e : Effect) : (r.emit e).enabled = r.enabled := rfl
@[simp] theorem Reader.emit_retry (r : Reader) (e : Effect) : (r.emit e).retry = r.retry := rfl
@[simp] theorem Reader.emit_timeout (r : Reader) (e : Effect) : (r.emit e).timeout = r.timeout := rfl
@[simp] theorem Reader.emit_parity (r : Reader) (e : Effect) : (r.emit e).parity = r.parity := rfl
@[simp] theorem Reader.emit_phase (r : Reader) (e : Effect) : (r.emit e).phase = r.phase := rfl
@[simp] theorem Reader.emit_sessionOpen (r : Reader) (e : Effect) : (r.emit e).sessionOpen = r.sessionOpen := rfl
@[simp] theorem Reader.emit_effects (r : Reader) (e : Effect) : (r.emit e).effects = r.effects ++ [e] := rfl

/-! ### `Reader.start` -/

@[simp] theorem Reader.start_address (r : Reader) (c : ReaderConfig) : (r.start c).address = c.address := rfl
@[simp] theorem Reader.start_nChans (r : Reader) (c : ReaderConfig) : (r.start c).nChans = c.nChans := rfl
@[simp] theorem Reader.start_enabled (r : Reader) (c : ReaderConfig) : (r.start c).enabled = c.enabled.getD true := rfl
@[simp] theorem Reader.start_retry (r : Reader) (c : ReaderConfig) : (r.start c).retry = c.retry.getD true := rfl
@[simp] theorem Reader.start_timeout (r : Reader) (c : ReaderConfig) : (r.start c).timeout = c.timeout.getD 1 := rfl
@[simp] theorem Reader.start_parity (r : Reader) (c : ReaderConfig) : (r.start c).parity = c.parity := rfl
@[simp] theorem Reader.start_phase (r : Reader) (c : ReaderConfig) : (r.start c).phase = .constructing := rfl
@[simp] theorem Reader.start_sessionOpen (r : Reader) (c : ReaderConfig) : (r.start c).sessionOpen = false := rfl
@[simp] theorem Reader.start_effects (r : Reader) (c : ReaderConfig) : (r.start c).effects = r.effects := rfl

/-! ### `Reader.goto` -/

@[simp] theorem Reader.goto_address (r : Reader) (p : ReaderPhase) : (r.goto p).address = r.address := rfl
@[simp] theorem Reader.goto_nChans (r : Reader) (p : ReaderPhase) : (r.goto p).nChans = r.nChans := rfl
@[simp] theorem Reader.goto_enabled (r : Reader) (p : ReaderPhase) : (r.goto p).enabled = r.enabled := rfl
@[simp] theorem Reader.goto_retry (r : Reader) (p : ReaderPhase) : (r.goto p).retry = r.retry := rfl
@[simp] theorem Reader.goto_timeout (r : Reader) (p : ReaderPhase) : (r.goto p).timeout = r.timeout := rfl
@[simp] theorem Reader.goto_parity (r : Reader) (p : ReaderPhase) : (r.goto p).parity = r.parity := rfl
@[simp] theorem Reader.goto_phase (r : Reader) (p : ReaderPhase) : (r.goto p).phase = p := rfl
@[simp] theorem Reader.goto_sessionOpen (r : Reader) (p : ReaderPhase) : (r.goto p).sessionOpen = r.sessionOpen := rfl
@[simp] theorem Reader.goto_effects (r : Reader) (p : ReaderPhase) : (r.goto p).effects = r.effects := rfl

end Sys2Proof.Machine
end

