-- ==== Sys2Proof/Laws/Ops.lean ====
section
/-! SUPPORT. One lemma for each shared operation that says everything it can do, and one that runs it where its conditions
hold: the guards of a phase, the reads of the frame, opening a DECODE, sequencing the phases. -/

namespace Sys2Proof.Machine

open Sys2Proof

/-! ### The guards of a phase -/

theorem inTxn_eq {s : State} {t : Txn} {n : Fin 17} (k : Txn → Fin 17 → Answer)
    (ht : s.txn = some t) (hc : s.cfg = .ready) (hn : s.nch = some n) : inTxn s k = k t n := by
  simp [inTxn, ht, hc, hn]

/-- A phase goes on only inside a DECODE on a READY instance. -/
theorem inTxn_next {s s' : State} {k : Txn → Fin 17 → Answer} (h : inTxn s k = .next s') :
    ∃ t n, s.txn = some t ∧ s.cfg = .ready ∧ s.nch = some n ∧ k t n = .next s' := by
  unfold inTxn at h
  split at h
  · cases h
  · rename_i t ht
    split at h
    · rename_i n hc hn
      exact ⟨t, n, ht, hc, hn, h⟩
    · cases h

theorem atStage_eq {s : State} {t : Txn} {n : Fin 17} {st : Stage} (k : Txn → Fin 17 → Answer)
    (ht : s.txn = some t) (hc : s.cfg = .ready) (hn : s.nch = some n) (hs : t.stage = st) :
    atStage st s k = k t n := by
  simp [atStage, inTxn_eq _ ht hc hn, hs]

/-- A phase goes on only at its stage of a DECODE on a READY instance. -/
theorem atStage_next {s s' : State} {st : Stage} {k : Txn → Fin 17 → Answer} (h : atStage st s k = .next s') :
    ∃ t n, s.txn = some t ∧ s.cfg = .ready ∧ s.nch = some n ∧ t.stage = st ∧ k t n = .next s' := by
  obtain ⟨t, n, ht, hc, hn, hk⟩ := inTxn_next h
  split at hk
  · rename_i hs
    exact ⟨t, n, ht, hc, hn, hs, hk⟩
  · cases hk

/-- A phase faults only at its stage of a DECODE. -/
theorem atStage_fault {s : State} {st : Stage} {k : Txn → Fin 17 → Answer} {r : Fault} (h : atStage st s k = .fault r) :
    ∃ t n, s.txn = some t ∧ t.stage = st ∧ k t n = .fault r := by
  unfold atStage inTxn at h
  split at h
  · cases h
  · rename_i t ht
    split at h
    · rename_i n _ _
      dsimp only at h
      split at h
      · rename_i hs
        exact ⟨t, n, ht, hs, h⟩
      · cases h
    · cases h

/-! ### Reading the frame -/

theorem loadOctets_some {s : State} {a n v : Nat} (k : Nat → Answer) (h : s.mem.readLE a n = some v) :
    loadOctets s a n k = k v := by
  simp [loadOctets, h]

/-- A read of the frame goes on only with a value MemRead has. -/
theorem loadOctets_next {s s' : State} {a n : Nat} {k : Nat → Answer} (h : loadOctets s a n k = .next s') :
    ∃ v, s.mem.readLE a n = some v ∧ k v = .next s' := by
  unfold loadOctets at h
  split at h
  · rename_i v hv
    exact ⟨v, hv, h⟩
  · cases h

/-- A read of the frame faults only where MemRead has no value, if the phase goes on without a fault. -/
theorem loadOctets_fault {s : State} {a n : Nat} {k : Nat → Answer} {r : Fault} (hk : ∀ v, k v ≠ .fault r)
    (h : loadOctets s a n k = .fault r) : r = .outsideFrame a n ∧ s.mem.readLE a n = none := by
  unfold loadOctets at h
  split at h
  · exact absurd h (hk _)
  · rename_i hm
    cases h
    exact ⟨rfl, hm⟩

/-- A read inside the frame goes on with the slice of the frame's integer. -/
theorem loadOctets_frame {s : State} {frame : List Byte} {a n : Nat} (k : Nat → Answer)
    (hm : s.mem = Memory.ofOctets frame) (h : a + n ≤ frame.length) :
    loadOctets s a n k = k (frameInt frame / 256 ^ a % 256 ^ n) :=
  loadOctets_some k (by rw [hm]; exact Memory.readLE_ofOctets_eq frame a n h)

/-- A read of one octet goes on only where the octet exists. -/
theorem loadOctet_next {s s' : State} {a : Nat} {k : Byte → Answer} (h : loadOctet s a k = .next s') :
    ∃ b, s.mem.readLE a 1 = some (BitVec.toNat b) ∧ k b = .next s' := by
  obtain ⟨v, hv, hk⟩ := loadOctets_next h
  refine ⟨BitVec.ofNat 8 v, ?_, hk⟩
  rw [hv]
  simp only [Memory.readLE] at hv
  split at hv
  · rename_i b w hb hw
    cases hw
    cases hv
    simp
  · cases hv

/-- A read of one octet of the frame goes on with that octet. -/
theorem loadOctet_frame {s : State} {frame : List Byte} {a : Nat} (k : Byte → Answer)
    (hm : s.mem = Memory.ofOctets frame) (h : a < frame.length) :
    loadOctet s a k = k (octetAt frame a) := by
  rw [loadOctet, loadOctets_frame _ hm h, Nat.pow_one, ← octetAt_toNat, BitVec.ofNat_toNat, BitVec.setWidth_eq]

/-! ### Opening a DECODE -/

/-- The state in which a DECODE has just been opened. -/
theorem openTxn_eq {s : State} {n : Fin 17} (form : Form) (frame : List Byte)
    (hc : s.cfg = .ready) (hn : s.nch = some n) (ht : s.txn = none) :
    openTxn form frame s = .next { s with
      txn := some (Txn.start frame.length (plannedPhases form n.val))
      mem := Memory.ofOctets frame
      result := none } := by
  simp [openTxn, hc, hn, ht]

/-- A DECODE opens only on a READY instance with no command in progress. -/
theorem openTxn_next {s s' : State} {form : Form} {frame : List Byte} (h : openTxn form frame s = .next s') :
    ∃ n, s.cfg = .ready ∧ s.nch = some n ∧ s.txn = none ∧ s' = { s with
      txn := some (Txn.start frame.length (plannedPhases form n.val))
      mem := Memory.ofOctets frame
      result := none } := by
  unfold openTxn at h
  split at h
  · cases h
  · rename_i ht
    split at h
    · rename_i hc
      split at h
      · rename_i n hn
        cases h
        exact ⟨n, hc, hn, by simpa using ht, rfl⟩
      · cases h
    · cases h

/-! ### Sequencing the phases -/

@[simp] theorem thenPhase_refused (r : Refusal) (f : State → Answer) : thenPhase (.refused r) f = .refused r := rfl
@[simp] theorem thenPhase_fault (r : Fault) (f : State → Answer) : thenPhase (.fault r) f = .fault r := rfl

theorem thenPhase_open {s : State} {t : Txn} (f : State → Answer) (h : s.txn = some t) :
    thenPhase (.next s) f = f s := by
  simp [thenPhase, h]

theorem thenPhase_closed {s : State} (f : State → Answer) (h : s.txn = none) : thenPhase (.next s) f = .next s := by
  simp [thenPhase, h]

@[simp] theorem runPhases_nil (o : Answer) : runPhases o [] = o := rfl
@[simp] theorem runPhases_cons (o : Answer) (f : State → Answer) (fs : List (State → Answer)) :
    runPhases o (f :: fs) = runPhases (thenPhase o f) fs := rfl

theorem runPhases_append (o : Answer) (fs gs : List (State → Answer)) :
    runPhases o (fs ++ gs) = runPhases (runPhases o fs) gs := by
  simp [runPhases, List.foldl_append]

/-- Once the DECODE has ended, later phases do nothing (41_validate.md R123). -/
theorem runPhases_closed {s : State} (fs : List (State → Answer)) (h : s.txn = none) :
    runPhases (.next s) fs = .next s := by
  induction fs with
  | nil => rfl
  | cons f fs ih => rw [runPhases_cons, thenPhase_closed f h, ih]

/-! ### The fixed extractors and the flags -/

/-- A fixed extractor goes on only with the checks passed: it fills its slot below NCH, and does nothing at or above it. -/
theorem extractFixed_next {i a n sh : Nat} {s s' : State} (h : extractFixed i a n sh s = .next s') :
    ∃ t c, s.txn = some t ∧ s.cfg = .ready ∧ s.nch = some c ∧ t.stage = .checked ∧
      ((i < c.val ∧ ∃ v, s.mem.readLE a n = some v ∧
          s' = s.withTxn { t with ch := t.ch.setIfInBounds i (some (chanOf v sh)) }) ∨
        (c.val ≤ i ∧ s' = s)) := by
  obtain ⟨t, c, ht, hc, hn, hs, hk⟩ := atStage_next h
  refine ⟨t, c, ht, hc, hn, hs, ?_⟩
  split at hk
  · rename_i hi
    obtain ⟨v, hv, hk⟩ := loadOctets_next hk
    cases hk
    exact .inl ⟨hi, v, hv, rfl⟩
  · rename_i hi
    cases hk
    exact .inr ⟨by omega, rfl⟩

/-- A flag phase goes on only with the checks passed: it writes its flag from octet 23. -/
theorem flagPhase_next {mask : Byte} {put : Txn → Bool → Txn} {s s' : State} (h : flagPhase mask put s = .next s') :
    ∃ t c b, s.txn = some t ∧ s.cfg = .ready ∧ s.nch = some c ∧ t.stage = .checked ∧
      s.mem.readLE Config.flagsOff 1 = some (BitVec.toNat b) ∧ s' = s.withTxn (put t (flagOf mask b)) := by
  obtain ⟨t, c, ht, hc, hn, hs, hk⟩ := atStage_next h
  obtain ⟨b, hb, hk⟩ := loadOctet_next hk
  cases hk
  exact ⟨t, c, b, ht, hc, hn, hs, hb, rfl⟩

/-! ### The slots -/

@[simp] theorem allValues_nil {α : Type} : allValues ([] : List (Option α)) = some [] := rfl

/-- A list of slots that all hold values gives those values. -/
theorem allValues_map_some {α : Type} (vs : List α) : allValues (vs.map some) = some vs := by
  induction vs with
  | nil => rfl
  | cons v vs ih => simp [allValues, ih]

/-- The values come from slots that all hold one. -/
theorem allValues_eq_some {α : Type} {xs : List (Option α)} {vs : List α} (h : allValues xs = some vs) :
    xs = vs.map some := by
  induction xs generalizing vs with
  | nil => cases h; rfl
  | cons x xs ih =>
    unfold allValues at h
    split at h
    · rename_i v ws hw
      cases h
      rw [ih hw]
      rfl
    · cases h

end Sys2Proof.Machine
end

