-- ==== Sys2Proof/Laws/PerInstr.lean ====
section
/-! SUPPORT. The statements made per instruction. `Reached`: every instruction is one of the two commands or a phase some
DECODE is made of (40_commands.md R103, R107), so no constructor of `Instr` stands outside every sequence. -/

namespace Sys2Proof.Laws.Reached

open Sys2Proof Sys2Proof.Machine

/-- The instruction is a command, or a phase of a DECODE in some form under some channel count from 0 to 16. -/
def Statement (i : Instr) : Prop :=
  isCommand i = true ∨ ∃ (form : Form) (n : Fin 17), i ∈ phasesOf form n.val

/-- A phase of the accumulator form under one channel. -/
theorem of_accumulator {i : Instr} (h : i ∈ phasesOf .accumulator 1) : Statement i := .inr ⟨.accumulator, 1, h⟩

/-- A phase of the form with fixed extractors. -/
theorem of_extractors {i : Instr} (h : i ∈ phasesOf .extractors 0) : Statement i := .inr ⟨.extractors, 0, h⟩

theorem config (n : Option Int) : Statement (.config n) := .inl rfl
theorem decode (frame : List Byte) : Statement (.decode frame) := .inl rfl
theorem chkLen : Statement .chkLen := of_accumulator (by decide)
theorem chkHdr : Statement .chkHdr := of_accumulator (by decide)
theorem chkEnd : Statement .chkEnd := of_accumulator (by decide)
theorem asm : Statement .asm := of_accumulator (by decide)
theorem dropHdr : Statement .dropHdr := of_accumulator (by decide)
theorem ext : Statement .ext := of_accumulator (by decide)
theorem extCh0 : Statement .extCh0 := of_extractors (by decide)
theorem extCh1 : Statement .extCh1 := of_extractors (by decide)
theorem extCh2 : Statement .extCh2 := of_extractors (by decide)
theorem extCh3 : Statement .extCh3 := of_extractors (by decide)
theorem extCh4 : Statement .extCh4 := of_extractors (by decide)
theorem extCh5 : Statement .extCh5 := of_extractors (by decide)
theorem extCh6 : Statement .extCh6 := of_extractors (by decide)
theorem extCh7 : Statement .extCh7 := of_extractors (by decide)
theorem extCh8 : Statement .extCh8 := of_extractors (by decide)
theorem extCh9 : Statement .extCh9 := of_extractors (by decide)
theorem extCh10 : Statement .extCh10 := of_extractors (by decide)
theorem extCh11 : Statement .extCh11 := of_extractors (by decide)
theorem extCh12 : Statement .extCh12 := of_extractors (by decide)
theorem extCh13 : Statement .extCh13 := of_extractors (by decide)
theorem extCh14 : Statement .extCh14 := of_extractors (by decide)
theorem extCh15 : Statement .extCh15 := of_extractors (by decide)
theorem flgFs : Statement .flgFs := of_accumulator (by decide)
theorem flgFl : Statement .flgFl := of_accumulator (by decide)
theorem flgCh18 : Statement .flgCh18 := of_accumulator (by decide)
theorem flgCh17 : Statement .flgCh17 := of_accumulator (by decide)
theorem emit : Statement .emit := of_accumulator (by decide)

end Sys2Proof.Laws.Reached
end

