-- ==== Sys2Proof/Laws/Phases.lean ====
section
/-! SUPPORT. Everything a phase of DECODE can do, said once: if it goes on, then one of the cases of `PhaseEffect` holds
(41_validate.md, 42_unpack.md, 43_flags.md). Proofs about phases cite `phase_next` and never unfold a meaning. -/

namespace Sys2Proof.Machine

open Sys2Proof

/-- What the phase `i` does where it goes on, inside the transaction `t` under the channel count `n`: the state after it. -/
inductive PhaseEffect (s : State) (t : Txn) (n : Fin 17) : Instr → State → Prop where
  | chkLenFails (hs : t.stage = .opened) (hl : t.len ≠ 25) :
      PhaseEffect s t n .chkLen (s.closeTxn.raise (.wrongLength 25 t.len))
  | chkLenPasses (hs : t.stage = .opened) (hl : t.len = 25) :
      PhaseEffect s t n .chkLen (s.withTxn { t with stage := .lenOk })
  | chkHdrFails (b : Byte) (hs : t.stage = .lenOk) (hm : s.mem.readLE 0 1 = some b.toNat) (hb : b ≠ 0x0F) :
      PhaseEffect s t n .chkHdr (s.closeTxn.raise (.wrongHeader 0x0F b.toNat))
  | chkHdrPasses (b : Byte) (hs : t.stage = .lenOk) (hm : s.mem.readLE 0 1 = some b.toNat) (hb : b = 0x0F) :
      PhaseEffect s t n .chkHdr (s.withTxn { t with stage := .hdrOk })
  | chkEndFails (b : Byte) (hs : t.stage = .hdrOk) (hm : s.mem.readLE 24 1 = some b.toNat) (hb : b ≠ 0x00) :
      PhaseEffect s t n .chkEnd (s.closeTxn.raise (.wrongEndByte 0x00 b.toNat))
  | chkEndPasses (b : Byte) (hs : t.stage = .hdrOk) (hm : s.mem.readLE 24 1 = some b.toNat) (hb : b = 0x00) :
      PhaseEffect s t n .chkEnd (s.withTxn { t with stage := .checked })
  | asm (v : Nat) (hs : t.stage = .checked) (hm : s.mem.readLE 0 25 = some v) :
      PhaseEffect s t n .asm (s.withTxn { t with f := some (BitVec.ofNat 200 v) })
  | dropHdr (f : BitVec 200) (hs : t.stage = .checked) (hf : t.f = some f) :
      PhaseEffect s t n .dropHdr (s.withTxn { t with acc := some ((f >>> 8).setWidth 192), idx := some 0 })
  | ext (a : BitVec 192) (i : BitVec 5) (hs : t.stage = .checked) (ha : t.acc = some a) (hi : t.idx = some i)
      (hlt : i.toNat < n.val) :
      PhaseEffect s t n .ext (s.withTxn { t with
        ch := t.ch.setIfInBounds i.toNat (some (a.setWidth 11))
        acc := some (a >>> 11)
        idx := some (i + 1) })
  | fixedFills (k a m sh v : Nat) (i : Instr) (hi : fixedExtractors[k]? = some i) (hs : t.stage = .checked)
      (hbits : 8 * a + sh = 8 + 11 * k) (hwide : sh + 11 ≤ 8 * m) (hin : a + m ≤ 25) (hk : k < n.val)
      (hm : s.mem.readLE a m = some v) :
      PhaseEffect s t n i (s.withTxn { t with ch := t.ch.setIfInBounds k (some (chanOf v sh)) })
  | fixedSkips (k : Nat) (i : Instr) (hi : fixedExtractors[k]? = some i) (hs : t.stage = .checked) (hk : n.val ≤ k) :
      PhaseEffect s t n i s
  | flgFs (b : Byte) (hs : t.stage = .checked) (hm : s.mem.readLE 23 1 = some b.toNat) :
      PhaseEffect s t n .flgFs (s.withTxn { t with failsafe := some (flagOf Config.fsMask b) })
  | flgFl (b : Byte) (hs : t.stage = .checked) (hm : s.mem.readLE 23 1 = some b.toNat) :
      PhaseEffect s t n .flgFl (s.withTxn { t with frameLost := some (flagOf Config.flMask b) })
  | flgCh18 (b : Byte) (hs : t.stage = .checked) (hm : s.mem.readLE 23 1 = some b.toNat) :
      PhaseEffect s t n .flgCh18 (s.withTxn { t with ch18 := some (flagOf Config.ch18Mask b) })
  | flgCh17 (b : Byte) (hs : t.stage = .checked) (hm : s.mem.readLE 23 1 = some b.toNat) :
      PhaseEffect s t n .flgCh17 (s.withTxn { t with ch17 := some (flagOf Config.ch17Mask b) })
  | emit (d : DecodedFrame) (hs : t.stage = .checked) (hd : t.record n.val = some d) :
      PhaseEffect s t n .emit (s.closeTxn.answer (.ok d))

/-- A fixed extractor whose octets and shift are those of channel `k` has one of its two effects. -/
theorem extractFixed_effect {s u : State} {i : Instr} (k a m sh : Nat) (hi : fixedExtractors[k]? = some i)
    (hbits : 8 * a + sh = 8 + 11 * k) (hwide : sh + 11 ≤ 8 * m) (hin : a + m ≤ 25)
    (h : extractFixed k a m sh s = .next u) :
    ∃ t n, s.txn = some t ∧ s.cfg = .ready ∧ s.nch = some n ∧ PhaseEffect s t n i u := by
  obtain ⟨t, c, ht, hc, hn, hst, h⟩ := extractFixed_next h
  refine ⟨t, c, ht, hc, hn, ?_⟩
  rcases h with ⟨hk, v, hv, rfl⟩ | ⟨hk, rfl⟩
  · exact .fixedFills k a m sh v i hi hst hbits hwide hin hk hv
  · exact .fixedSkips k i hi hst hk

/-- Everything a phase can do: it goes on only inside a DECODE on a READY instance, with one of the effects listed. -/
theorem phase_next {i : Instr} {s u : State} (hi : isCommand i = false) (h : exec i s = .next u) :
    ∃ t n, s.txn = some t ∧ s.cfg = .ready ∧ s.nch = some n ∧ PhaseEffect s t n i u := by
  cases i with
  | config n => cases hi
  | decode f => cases hi
  | chkLen =>
    obtain ⟨t, n, ht, hc, hn, hs, hk⟩ := atStage_next h
    refine ⟨t, n, ht, hc, hn, ?_⟩
    split at hk
    · rename_i e; cases hk; exact .chkLenPasses hs e
    · rename_i e; cases hk; exact .chkLenFails hs e
  | chkHdr =>
    obtain ⟨t, n, ht, hc, hn, hs, hk⟩ := atStage_next h
    refine ⟨t, n, ht, hc, hn, ?_⟩
    obtain ⟨b, hb, hk⟩ := loadOctet_next hk
    split at hk
    · rename_i e; cases hk; exact .chkHdrPasses b hs hb e
    · rename_i e; cases hk; exact .chkHdrFails b hs hb e
  | chkEnd =>
    obtain ⟨t, n, ht, hc, hn, hs, hk⟩ := atStage_next h
    refine ⟨t, n, ht, hc, hn, ?_⟩
    obtain ⟨b, hb, hk⟩ := loadOctet_next hk
    split at hk
    · rename_i e; cases hk; exact .chkEndPasses b hs hb e
    · rename_i e; cases hk; exact .chkEndFails b hs hb e
  | asm =>
    obtain ⟨t, n, ht, hc, hn, hs, hk⟩ := atStage_next h
    obtain ⟨v, hv, hk⟩ := loadOctets_next hk
    cases hk
    exact ⟨t, n, ht, hc, hn, .asm v hs hv⟩
  | dropHdr =>
    obtain ⟨t, n, ht, hc, hn, hs, hk⟩ := atStage_next h
    split at hk
    · rename_i f hf; cases hk; exact ⟨t, n, ht, hc, hn, .dropHdr f hs hf⟩
    · cases hk
  | ext =>
    obtain ⟨t, n, ht, hc, hn, hs, hk⟩ := atStage_next h
    split at hk
    · rename_i a i ha hi
      split at hk
      · rename_i hlt; cases hk; exact ⟨t, n, ht, hc, hn, .ext a i hs ha hi hlt⟩
      · cases hk
    · cases hk
  | extCh0 => exact extractFixed_effect 0 1 2 0 rfl (by omega) (by omega) (by omega) h
  | extCh1 => exact extractFixed_effect 1 2 2 3 rfl (by omega) (by omega) (by omega) h
  | extCh2 => exact extractFixed_effect 2 3 3 6 rfl (by omega) (by omega) (by omega) h
  | extCh3 => exact extractFixed_effect 3 5 2 1 rfl (by omega) (by omega) (by omega) h
  | extCh4 => exact extractFixed_effect 4 6 2 4 rfl (by omega) (by omega) (by omega) h
  | extCh5 => exact extractFixed_effect 5 7 3 7 rfl (by omega) (by omega) (by omega) h
  | extCh6 => exact extractFixed_effect 6 9 2 2 rfl (by omega) (by omega) (by omega) h
  | extCh7 => exact extractFixed_effect 7 10 2 5 rfl (by omega) (by omega) (by omega) h
  | extCh8 => exact extractFixed_effect 8 12 2 0 rfl (by omega) (by omega) (by omega) h
  | extCh9 => exact extractFixed_effect 9 13 2 3 rfl (by omega) (by omega) (by omega) h
  | extCh10 => exact extractFixed_effect 10 14 3 6 rfl (by omega) (by omega) (by omega) h
  | extCh11 => exact extractFixed_effect 11 16 2 1 rfl (by omega) (by omega) (by omega) h
  | extCh12 => exact extractFixed_effect 12 17 2 4 rfl (by omega) (by omega) (by omega) h
  | extCh13 => exact extractFixed_effect 13 18 3 7 rfl (by omega) (by omega) (by omega) h
  | extCh14 => exact extractFixed_effect 14 20 2 2 rfl (by omega) (by omega) (by omega) h
  | extCh15 => exact extractFixed_effect 15 21 2 5 rfl (by omega) (by omega) (by omega) h
  | flgFs => obtain ⟨t, c, b, ht, hc, hn, hs, hm, rfl⟩ := flagPhase_next (show flagPhase Config.fsMask (fun t b => { t with failsafe := some b }) s = .next u from h); exact ⟨t, c, ht, hc, hn, .flgFs b hs hm⟩
  | flgFl => obtain ⟨t, c, b, ht, hc, hn, hs, hm, rfl⟩ := flagPhase_next (show flagPhase Config.flMask (fun t b => { t with frameLost := some b }) s = .next u from h); exact ⟨t, c, ht, hc, hn, .flgFl b hs hm⟩
  | flgCh18 => obtain ⟨t, c, b, ht, hc, hn, hs, hm, rfl⟩ := flagPhase_next (show flagPhase Config.ch18Mask (fun t b => { t with ch18 := some b }) s = .next u from h); exact ⟨t, c, ht, hc, hn, .flgCh18 b hs hm⟩
  | flgCh17 => obtain ⟨t, c, b, ht, hc, hn, hs, hm, rfl⟩ := flagPhase_next (show flagPhase Config.ch17Mask (fun t b => { t with ch17 := some b }) s = .next u from h); exact ⟨t, c, ht, hc, hn, .flgCh17 b hs hm⟩
  | emit =>
    obtain ⟨t, n, ht, hc, hn, hs, hk⟩ := atStage_next h
    split at hk
    · rename_i d hd; cases hk; exact ⟨t, n, ht, hc, hn, .emit d hs hd⟩
    · cases hk

end Sys2Proof.Machine
end

