-- ==== Sys2Proof/Laws/Step.lean ====
section
/-! SUPPORT. Everything a step of the machine can do, said once: `step_next` lists it, and every statement about all steps
is a case analysis over it. -/

namespace Sys2Proof.Machine

open Sys2Proof

/-- What a step that goes on has done, by what it has taken. -/
inductive StepEffect (s : State) : State → Prop where
  /-- the reader's own move -/
  | move (r : Reader) (h : readerMove s.reader s.result = some r) :
      StepEffect s { s.taken s.inbox with reader := r }
  /-- nothing to do -/
  | idle (hr : readerMove s.reader s.result = none) (ht : s.txn = none) (hi : s.inbox = []) :
      StepEffect s (s.taken [])
  /-- reset -/
  | reset (rest : List Input) (hr : readerMove s.reader s.result = none) (hi : s.inbox = .rst :: rest) :
      StepEffect s (s.taken rest).resetBlock
  /-- a presented command -/
  | command (c : Ports) (i : Instr) (rest : List Input) (u : State) (hr : readerMove s.reader s.result = none)
      (ht : s.txn = none) (hi : s.inbox = .command c :: rest) (hd : decodePorts s.params c = .instr i)
      (hu : runInstr i (s.taken rest) = .next u) : StepEffect s u
  /-- an event of the host contract -/
  | event (e : HostEvent) (r : Reader) (presented rest : List Input) (hr : readerMove s.reader s.result = none)
      (ht : s.txn = none) (hi : s.inbox = .event e :: rest)
      (he : readerEvent s.params e s.reader = some (r, presented)) :
      StepEffect s { s.taken rest with reader := r, inbox := presented ++ rest }
  /-- the next phase of the DECODE in progress -/
  | phase (t : Txn) (i : Instr) (rest : List Instr) (u : State) (hr : readerMove s.reader s.result = none)
      (ht : s.txn = some t) (htodo : t.todo = i :: rest) (hno : s.resetAsserted = false)
      (hu : exec i ((s.taken s.inbox).withTxn { t with todo := rest }) = .next u) : StepEffect s u

/-- What taking the next input can do. -/
theorem takeInput_next {s u : State} (hr : readerMove s.reader s.result = none)
    (ho : s.txn = none ∨ s.resetAsserted = true) (h : takeInput s = .next u) : StepEffect s u := by
  have open_or_reset : ∀ x rest, s.inbox = x :: rest → x ≠ .rst → s.txn = none := by
    intro x rest hin hx
    rcases ho with ho | ho
    · exact ho
    · simp [State.resetAsserted, hin, hx] at ho
  unfold takeInput at h
  split at h
  · rename_i hin
    cases h
    refine .idle hr ?_ hin
    rcases ho with ho | ho
    · exact ho
    · simp [State.resetAsserted, hin] at ho
  · rename_i rest hin
    cases h
    exact .reset rest hr hin
  · rename_i c rest hin
    unfold runCommand at h
    split at h
    · rename_i i hd
      exact .command c i rest u hr (open_or_reset _ _ hin (by simp)) hin hd h
    · cases h
  · rename_i e rest hin
    unfold takeEvent at h
    split at h
    · rename_i r presented he
      cases h
      exact .event e r presented rest hr (open_or_reset _ _ hin (by simp)) hin he
    · cases h

/-- Everything a step can do. -/
theorem step_next {s u : State} (h : step s = .next u) : StepEffect s u := by
  unfold step at h
  split at h
  · rename_i r hr
    cases h
    exact .move r hr
  · rename_i hr
    split at h
    · rename_i ht
      exact takeInput_next hr (.inl ht) h
    · rename_i t ht
      split at h
      · rename_i hreset
        exact takeInput_next hr (.inr hreset) h
      · rename_i hno
        unfold runPhase at h
        split at h
        · rename_i i rest htodo
          exact .phase t i rest u hr ht htodo (by simpa using hno) h
        · cases h

/-- A command run by a step is its meaning, or a DECODE opened to go phase by phase. -/
theorem runInstr_next {i : Instr} {s u : State} (h : runInstr i s = .next u) :
    exec i s = .next u ∨ ∃ form frame, openTxn form frame s = .next u ∧ i = .decode frame := by
  unfold runInstr at h
  split at h
  · exact .inr ⟨_, _, h, rfl⟩
  · exact .inr ⟨_, _, h, rfl⟩
  · exact .inl h

end Sys2Proof.Machine
end

