-- ==== Sys2Proof/Tests/Slice0.lean ====
section
/-! SUPPORT. The model's own tests, with expected values from spec/95_test_vectors.md and the examples of the rules, and a
witness for the hypotheses of every statement of Certificates/Slice0/Obligations.lean. -/

namespace Sys2Proof.Tests

open Sys2Proof Sys2Proof.Machine

/-! ### Frames of 95_test_vectors.md and small states -/

/-- S1, the document's scenario 1. -/
def s1 : List Byte :=
  [0x0F, 0xE0, 0x63, 0x22, 0xF1, 0xC0, 0x07, 0x3E, 0x7F, 0x83, 0x0F, 0x7C, 0, 0, 0, 0, 0, 0, 0, 0, 0, 0, 0, 0, 0]

/-- S2, the document's scenario 2. -/
def s2 : List Byte :=
  [0x0F, 0x43, 0x62, 0xE2, 0xF0, 0xC0, 0x07, 0x0C, 0x80, 0x83, 0x0F, 0x7C, 0, 0, 0, 0, 0, 0, 0, 0, 0, 0, 0, 0, 0]

/-- V1 of 95_test_vectors.md 2.3. -/
def v1 : List Byte :=
  [0x0F, 0x01, 0xF8, 0x3F, 0x00, 0x00, 0x58, 0x55, 0x55, 0xF9, 0x7F, 0x00, 0xE0, 0x63, 0xC5, 0xC4, 0xB9, 0x0B, 0xFD,
   0x00, 0xFC, 0x0F, 0xF8, 0x90, 0x00]

/-- `0F`, 22 octets of `b`, the flags octet and `00` (95_test_vectors.md 2.4, V2 to V4). -/
def filled (b flags : Byte) : List Byte := 0x0F :: List.replicate 22 b ++ [flags, 0x00]

/-- A READY instance with `n` channels. -/
def ready (n : Fin 17) : State := { State.reset with cfg := .ready, nch := some n }

/-- An instance after a ConfigError. -/
def dead : State := { State.reset with cfg := .cfgFault }

/-- A transaction of `frame` at the stage `st`. -/
def txnAt (st : Stage) (frame : List Byte) : Txn := { Txn.start frame.length [] with stage := st }

/-- A READY instance in the middle of a DECODE of `frame`. -/
def during (n : Fin 17) (frame : List Byte) (t : Txn) : State :=
  { ready n with txn := some t, mem := Memory.ofOctets frame }

/-- The instance at the stage `st`. -/
def at' (n : Fin 17) (st : Stage) (frame : List Byte) : State := during n frame (txnAt st frame)

/-- The host's reader at a phase, above a READY instance with 16 channels, with inputs waiting. -/
def reading (p : ReaderPhase) (inbox : List Input) : State :=
  { ready 16 with reader := { Reader.reset with phase := p, sessionOpen := true }, inbox := inbox }

/-- The state after a step. -/
def stateOf : Answer → Option State
  | .next s    => some s
  | .fault _   => none
  | .refused _ => none

/-- The result on the ports after a step. -/
def resultOf (o : Answer) : Option Result := (stateOf o).bind State.result

/-- The transaction after a step. -/
def txnOf (o : Answer) : Option Txn := (stateOf o).bind State.txn

/-- The reason of a refusal. -/
def refusalOf : Answer → Option Refusal
  | .next _    => none
  | .fault _   => none
  | .refused r => some r

/-- The reason of a fault. -/
def faultOf : Answer → Option Fault
  | .next _    => none
  | .fault r   => some r
  | .refused _ => none

/-! ### Well-formedness: an ill-formed term for each check -/

theorem test_wf_config_too_high : wellFormed Params.default (.config (some 128)) = false := by decide
theorem test_wf_config_too_low : wellFormed Params.default (.config (some (-129))) = false := by decide
theorem test_wf_frame_too_long : wellFormed Params.default (.decode (List.replicate 256 0)) = false := by
  simp [-List.reduceReplicate, wellFormed, Params.default]
theorem test_wf_accepts : wellFormed Params.default (.config (some (-128))) = true ∧
    wellFormed Params.default (.config (some 127)) = true ∧ wellFormed Params.default (.config none) = true ∧
    wellFormed Params.default (.decode (List.replicate 255 0)) = true := by
  simp [-List.reduceReplicate, wellFormed, Params.default, fitsSigned]

/-! ### Decoding: words written out from 30_encoding.md R72, R76 and 10_state.md R31 -/

/-- cmd = 0, cfg_n = 0000 0110, two's complement (P1). -/
theorem test_decode_config_6 : decodeTableWord 8 0b00000110 = some (.config (some 6)) := by decide
/-- cmd = 0, cfg_n = 1111 1111 (P3). -/
theorem test_decode_config_minus_1 : decodeTableWord 8 0b11111111 = some (.config (some (-1))) := by decide
/-- cmd = 0, cfg_n = 1000 0000 (2.1). -/
theorem test_decode_config_minus_128 : decodeTableWord 8 0b10000000 = some (.config (some (-128))) := by decide
/-- cmd = 0, operand omitted (P2). -/
theorem test_decode_config_omitted :
    decodePorts Params.default { cmd := 0, cfgN := none, frame := [] } = .instr (.config none) := by decide
/-- A bit past `CFG_W` cannot be presented (93_implementation_defined.md U11). -/
theorem test_decode_operand_too_wide :
    decodePorts Params.default { cmd := 0, cfgN := some 0x100, frame := [] } = .reject .operandTooWide := by decide
/-- A length past `LEN_MAX` cannot be presented (93_implementation_defined.md U11). -/
theorem test_decode_frame_too_long :
    decodePorts Params.default { cmd := 1, cfgN := none, frame := List.replicate 256 0 } = .reject .frameTooLong := by
  simp [-List.reduceReplicate, decodePorts, Params.default]
/-- The match word of the table's DECODE row: header `0F`, all else zero. -/
theorem test_decode_frame : decodeTableWord 200 0x0F = some (.decode (filled 0x00 0x00)) := by decide
/-- F of scenario 1 (42_unpack.md R130) is the frame of scenario 1, octet 0 the low octet (00_scope.md R13). -/
theorem test_decode_s1 : decodeTableWord 200 0x7C0F837F3E07C0F12263E00F = some (.decode s1) := by decide
/-- Octet 23 is bits 191 to 184 and octet 24 bits 199 to 192 (30_encoding.md R72). -/
theorem test_decode_high_octets : decodeTableWord 200 (0x0F + 0x90 * 2 ^ 184 + 0x04 * 2 ^ 192) =
    some (.decode (0x0F :: List.replicate 22 0x00 ++ [0x90, 0x04])) := by decide
/-- The phases have no word: their place in 40_commands.md R103 selects them. -/
theorem test_phases_accumulator : phasesOf .accumulator 2 =
    [.chkLen, .chkHdr, .chkEnd, .asm, .dropHdr, .ext, .ext, .flgFs, .flgFl, .flgCh18, .flgCh17, .emit] := by decide
theorem test_phases_extractors : phasesOf .extractors 2 =
    [.chkLen, .chkHdr, .chkEnd, .extCh0, .extCh1, .extCh2, .extCh3, .extCh4, .extCh5, .extCh6, .extCh7, .extCh8, .extCh9,
     .extCh10, .extCh11, .extCh12, .extCh13, .extCh14, .extCh15, .flgFs, .flgFl, .flgCh18, .flgCh17, .emit] := by decide
/-- F of scenario 1 (42_unpack.md R130). -/
theorem test_frame_integer : frameInt s1 = 0x7C0F837F3E07C0F12263E00F := by decide
/-- PACK of V1's channels and flags is V1 (2.3, 30_encoding.md R92). -/
theorem test_pack_v1 : pack #v[1, 2047, 0, 1024, 1365, 682, 2046, 3, 992, 172, 1811, 1500, 2000, 1, 1023, 1984]
    true false false true = v1 := by decide

/-! ### CONFIG (95_test_vectors.md 2.1) -/

theorem test_config_16 : (stateOf (exec (.config (some 16)) State.reset)).map (fun s => (s.cfg, s.nch)) =
    some (.ready, some 16) := by decide
theorem test_config_17 : (stateOf (exec (.config (some 17)) State.reset)).map (fun s => (s.cfg, s.nch, s.result)) =
    some (.cfgFault, none, some (.err (.configError 0 16 17))) := by decide

/-! ### DECODE (95_test_vectors.md 2.2 to 2.6) -/

theorem test_decode_v1 : resultOf (exec (.decode v1) (ready 16)) = some (.ok
    { channels := [1, 2047, 0, 1024, 1365, 682, 2046, 3, 992, 172, 1811, 1500, 2000, 1, 1023, 1984],
      failsafe := true, frameLost := false, ch17 := true, ch18 := false }) := by decide
/-- An error record has its code on `err_kind`, a success none (60_exceptions.md R206, 70_reset_and_hazards.md R237). -/
theorem test_err_kind : (stateOf (exec (.decode (v1.set 24 0x04)) (ready 16))).bind State.errKind = some 3 ∧
    (stateOf (exec (.decode v1) (ready 16))).bind State.errKind = none := by decide
/-- V1 with octet 0 `F0` and octet 24 `FF`: header before end (41_validate.md R123). -/
theorem test_decode_header_before_end :
    resultOf (exec (.decode ((v1.set 0 0xF0).set 24 0xFF)) (ready 16)) = some (.err (.wrongHeader 0x0F 0xF0)) := by decide

/-! ### The phases (95_test_vectors.md P6 and the examples of the rules) -/

/-- `DECODE 0F 00 00` (41_validate.md R120). -/
theorem test_chkLen : resultOf (exec .chkLen (at' 16 .opened [0x0F, 0x00, 0x00])) = some (.err (.wrongLength 25 3)) := by
  decide
/-- `DECODE 0E 00 ... 00` (41_validate.md R121). -/
theorem test_chkHdr : resultOf (exec .chkHdr (at' 16 .lenOk ((filled 0 0).set 0 0x0E))) =
    some (.err (.wrongHeader 0x0F 0x0E)) := by decide
/-- `DECODE 0F 00 ... 00 04` (41_validate.md R122). -/
theorem test_chkEnd : resultOf (exec .chkEnd (at' 16 .hdrOk ((filled 0 0).set 24 0x04))) =
    some (.err (.wrongEndByte 0x00 0x04)) := by decide
/-- P6: `F = 0x7C0F83800C07C0F0E262430F`. -/
theorem test_asm : (txnOf (exec .asm (at' 3 .checked s2))).map Txn.f = some (some 0x7C0F83800C07C0F0E262430F) := by decide
/-- P6: `ACC = 0x7C0F83800C07C0F0E26243`, `IDX = 0`. -/
theorem test_dropHdr : (txnOf (exec .dropHdr (during 3 s2 { txnAt .checked s2 with f := some 0x7C0F83800C07C0F0E262430F
    }))).map (fun t => (t.acc, t.idx)) = some (some 0x7C0F83800C07C0F0E26243, some 0) := by decide
/-- P6, EXT(1): 1100, `ACC = 0x1F03E0E00301F03C3`, `IDX = 2`. -/
theorem test_ext : (txnOf (exec .ext (during 3 s2 { txnAt .checked s2 with acc := some 0xF81F0700180F81E1C4C, idx := some 1
    }))).map (fun t => (t.ch[1], t.acc, t.idx)) = some (some 1100, some 0x1F03E0E00301F03C3, some 2) := by decide
/-- V1's channels by the fixed extractors (42_unpack.md R134 to R149). -/
theorem test_extCh0 : (txnOf (exec .extCh0 (at' 16 .checked v1))).bind (·.ch[0]) = some 1 := by decide
theorem test_extCh1 : (txnOf (exec .extCh1 (at' 16 .checked v1))).bind (·.ch[1]) = some 2047 := by decide
theorem test_extCh2 : (txnOf (exec .extCh2 (at' 16 .checked v1))).bind (·.ch[2]) = some 0 := by decide
theorem test_extCh3 : (txnOf (exec .extCh3 (at' 16 .checked v1))).bind (·.ch[3]) = some 1024 := by decide
theorem test_extCh4 : (txnOf (exec .extCh4 (at' 16 .checked v1))).bind (·.ch[4]) = some 1365 := by decide
theorem test_extCh5 : (txnOf (exec .extCh5 (at' 16 .checked v1))).bind (·.ch[5]) = some 682 := by decide
theorem test_extCh6 : (txnOf (exec .extCh6 (at' 16 .checked v1))).bind (·.ch[6]) = some 2046 := by decide
theorem test_extCh7 : (txnOf (exec .extCh7 (at' 16 .checked v1))).bind (·.ch[7]) = some 3 := by decide
theorem test_extCh8 : (txnOf (exec .extCh8 (at' 16 .checked v1))).bind (·.ch[8]) = some 992 := by decide
theorem test_extCh9 : (txnOf (exec .extCh9 (at' 16 .checked v1))).bind (·.ch[9]) = some 172 := by decide
theorem test_extCh10 : (txnOf (exec .extCh10 (at' 16 .checked v1))).bind (·.ch[10]) = some 1811 := by decide
theorem test_extCh11 : (txnOf (exec .extCh11 (at' 16 .checked v1))).bind (·.ch[11]) = some 1500 := by decide
theorem test_extCh12 : (txnOf (exec .extCh12 (at' 16 .checked v1))).bind (·.ch[12]) = some 2000 := by decide
theorem test_extCh13 : (txnOf (exec .extCh13 (at' 16 .checked v1))).bind (·.ch[13]) = some 1 := by decide
theorem test_extCh14 : (txnOf (exec .extCh14 (at' 16 .checked v1))).bind (·.ch[14]) = some 1023 := by decide
theorem test_extCh15 : (txnOf (exec .extCh15 (at' 16 .checked v1))).bind (·.ch[15]) = some 1984 := by decide
/-- With NCH at most the channel the slot keeps no value (42_unpack.md R149, Corner cases). -/
theorem test_extCh15_inactive : (txnOf (exec .extCh15 (at' 15 .checked v1))).bind (·.ch[15]) = none := by decide
/-- `frame[23] = 0xEF` gives failsafe false and the other three true (43_flags.md R160). -/
theorem test_flgFs : (txnOf (exec .flgFs (at' 0 .checked (filled 0 0xEF)))).map Txn.failsafe = some (some false) := by decide
theorem test_flgFl : (txnOf (exec .flgFl (at' 0 .checked (filled 0 0x20)))).map Txn.frameLost = some (some true) := by decide
theorem test_flgCh18 : (txnOf (exec .flgCh18 (at' 0 .checked (filled 0 0x80)))).map Txn.ch18 = some (some false) := by decide
theorem test_flgCh17 : (txnOf (exec .flgCh17 (at' 0 .checked (filled 0 0x80)))).map Txn.ch17 = some (some true) := by decide

/-- A transaction with the three channels of P6 and four flags, ready for EMIT. -/
def filledTxn (frame : List Byte) : Txn :=
  { txnAt .checked frame with
    ch := Vector.replicate 16 (some 579), failsafe := some true, frameLost := some false, ch18 := some false,
    ch17 := some true }

/-- EMIT delivers NCH slots (43_flags.md R166), and the frame is gone (10_state.md R35). -/
theorem test_emit : (stateOf (exec .emit (during 2 s2 (filledTxn s2)))).map (fun s => (s.result, s.txn, s.mem)) =
    some (some (.ok { channels := [579, 579], failsafe := true, frameLost := false, ch17 := true, ch18 := false }),
      none, []) := by decide
/-- A slot below NCH without a value is never read as a number (10_state.md R27). -/
theorem test_emit_no_value : refusalOf (exec .emit (at' 1 .checked s2)) = some .operandWithoutValue := by decide

/-! ### The step -/

/-- P1 step 2: CONFIG 6 as the first command after reset. -/
theorem test_step_config : (stateOf (step (State.reset.withFetchWord 8 6))).map (fun s => (s.cfg, s.nch)) =
    some (.ready, some 6) := by decide
/-- DECODE before CONFIG is refused (40_commands.md R106). -/
theorem test_step_decode_before_config : refusalOf (step (State.reset.withFetchWord 200 0x0F)) = some .decodeNotReady := by
  decide
/-- The same word on a READY instance is decoded (V2). -/
theorem test_step_decode : resultOf (step ((ready 1).withFetchWord 200 0x0F)) = some (.ok
    { channels := [0], failsafe := false, frameLost := false, ch17 := false, ch18 := false }) := by decide
/-- Reset during a transaction abandons it without a result (70_reset_and_hazards.md R230). -/
theorem test_step_reset : (stateOf (step { at' 16 .lenOk v1 with inbox := [.rst] })).map
    (fun s => (s.cfg, s.nch, s.txn, s.result)) = some (.unconfigured, none, none, none) := by decide
/-- P4 step 1: an empty read logs a warning and keeps the session. -/
theorem test_step_empty_read : (stateOf (step (reading .reading [.event (.readReturned (.octets []))]))).map
    (fun s => (s.reader.phase, s.reader.sessionOpen, s.reader.effects)) =
    some (.innerTop, true, [.logWarning "" 1]) := by decide
/-- A reader constructed with the address alone has `enabled`, RETRY and TIMEOUT at their defaults and presents CONFIG
without an operand (44_host_frame_reader.md R171). -/
theorem test_step_start : (stateOf (step { State.reset with inbox := [.event (.start
    { address := "tty", nChans := none, enabled := none, retry := none, timeout := none, parity := .none })] })).map
    (fun s => (s.reader.enabled, s.reader.retry, s.reader.timeout, s.inbox)) =
    some (true, true, 1, [.command { cmd := 0, cfgN := none, frame := [] }]) := by decide
/-- P5 step 3: after a failure the session is closed and one backoff slept. -/
theorem test_step_closing : (stateOf (step (reading .closing []))).map
    (fun s => (s.reader.phase, s.reader.sessionOpen, s.reader.effects)) =
    some (.sleeping, false, [.closed, .slept 1]) := by decide
/-- 70_reset_and_hazards.md R241: 300 bit times with parity, 275 without. -/
theorem test_frame_bit_times : frameBitTimes .even = 300 ∧ frameBitTimes .none = 275 := by decide

/-! ### Witnesses: the hypotheses of every statement can be met, each clause at a boundary -/

theorem ready_is_ready (n : Fin 17) : (ready n).Ready n := ⟨rfl, rfl, rfl⟩

theorem at_is_decoding (n : Fin 17) (st : Stage) (frame : List Byte) :
    (at' n st frame).Decoding (txnAt st frame) n frame st := ⟨rfl, rfl, rfl, rfl, rfl, rfl⟩

/-- A READY instance between transactions meets the invariant. -/
theorem ready_inv (n : Fin 17) : (ready n).Inv where
  count := by simp [ready]
  canonical := List.Pairwise.nil
  idle := fun _ => rfl
  busy := fun t h => by simp [ready, State.reset] at h
  answer := fun d h => by simp [ready, State.reset] at h

/-- An instance in the middle of a DECODE whose transaction agrees with its frame meets the invariant. -/
theorem at_inv (n : Fin 17) (st : Stage) (frame : List Byte) (h : (txnAt st frame).Agrees n frame) :
    (at' n st frame).Inv where
  count := by simp [at', during, ready]
  canonical := Memory.ofOctets_wf frame
  idle := fun h => by simp [at', during] at h
  busy := by
    intro t ht
    obtain rfl : txnAt st frame = t := by simpa [at', during] using ht
    exact ⟨rfl, n, frame, rfl, rfl, h⟩
  answer := fun d h => by simp [at', during, ready, State.reset] at h

/-- An instance with a DECODE just opened meets the invariant. -/
theorem opened_inv (n : Fin 17) (frame : List Byte) : (at' n .opened frame).Inv :=
  at_inv n .opened frame (by constructor <;> simp [txnAt, Txn.start])

theorem witness_config_accepted : State.reset.txn = none ∧ State.reset.cfg = .unconfigured ∧
    0 ≤ configValue (some 0) ∧ configValue (some 0) ≤ 16 ∧ 0 ≤ configValue (some 16) ∧ configValue (some 16) ≤ 16 := by
  decide
theorem witness_config_error : State.reset.txn = none ∧ State.reset.cfg = .unconfigured ∧
    configValue (some (-1)) < 0 ∧ 16 < configValue (some 17) := by decide
theorem witness_config_refused : (ready 0).txn = none ∧ (ready 0).cfg ≠ .unconfigured ∧ dead.txn = none ∧
    dead.cfg ≠ .unconfigured := by decide
theorem witness_decode_refused : State.reset.txn = none ∧ State.reset.cfg ≠ .ready ∧ dead.txn = none ∧
    dead.cfg ≠ .ready := by decide
/-- A phase before its checks, a check repeated, and EXT at IDX = NCH. -/
theorem witness_phase_out_of_place : (at' 16 .hdrOk v1).Decoding (txnAt .hdrOk v1) 16 v1 .hdrOk ∧
    isCommand .emit = false ∧ Instr.emit ∉ checkPhases ∧ Stage.hdrOk ≠ .checked ∧ Stage.hdrOk ≠ .opened ∧
    Stage.hdrOk ≠ .lenOk ∧ (at' 16 .lenOk v1).Decoding (txnAt .lenOk v1) 16 v1 .lenOk ∧ Stage.lenOk ≠ .hdrOk ∧
    (∃ t : Txn, (during 16 v1 t).Decoding t 16 v1 .checked ∧ t.acc = some 0 ∧ t.idx = some 16 ∧
      (16 : Fin 17).val ≤ (16 : BitVec 5).toNat) ∧
    (at' 16 .checked v1).Decoding (txnAt .checked v1) 16 v1 .checked ∧ (txnAt .checked v1).f = none ∧
    (txnAt .checked v1).acc = none ∧ (txnAt .checked v1).failsafe = none ∧ (txnAt .checked v1).ch[15] = none ∧
    15 < (16 : Fin 17).val :=
  ⟨at_is_decoding _ _ _, rfl, by decide, by decide, by decide, by decide, at_is_decoding _ _ _, by decide,
    ⟨{ txnAt .checked v1 with acc := some 0, idx := some 16 }, ⟨rfl, rfl, rfl, rfl, rfl, rfl⟩, rfl, rfl, by decide⟩,
    at_is_decoding _ _ _, by decide⟩
theorem witness_out_of_place : isCommand (.config none) = true ∧ isCommand (.decode []) = true ∧
    (at' 16 .opened v1).txn ≠ none ∧ isCommand .emit = false ∧ (ready 16).txn = none := by decide
theorem witness_decode_ready : (ready 0).Ready 0 ∧ (ready 16).Ready 16 := ⟨ready_is_ready 0, ready_is_ready 16⟩
theorem witness_decode_next : (ready 0).Inv ∧ (∃ t, exec (.decode []) (ready 0) = .next t) ∧ (ready 16).Inv ∧
    ∃ t, exec (.decode v1) (ready 16) = .next t := ⟨ready_inv 0, ⟨_, rfl⟩, ready_inv 16, ⟨_, rfl⟩⟩
theorem witness_lengths : ([] : List Byte).length ≠ 25 ∧ (v1.take 24).length ≠ 25 ∧ (v1 ++ [0x00]).length ≠ 25 ∧
    v1.length = 25 ∧ (v1.take 24).length = (List.replicate 24 (0xFF : Byte)).length := by decide
theorem witness_headers : (v1.set 0 0x0E).length = 25 ∧ octetAt (v1.set 0 0x0E) 0 ≠ 0x0F ∧ octetAt v1 0 = 0x0F ∧
    octetAt (v1.set 24 0x04) 0 = 0x0F ∧ octetAt (v1.set 24 0x04) 24 ≠ 0x00 ∧ octetAt v1 24 = 0x00 := by decide
theorem witness_valid : ValidFrame v1 ∧ ValidFrame (filled 0xFF 0xFF) ∧ ValidFrame (filled 0x00 0x00) := by decide
theorem witness_invalid : ¬ ValidFrame [] ∧ ¬ ValidFrame (v1.set 0 0x0E) ∧ ¬ ValidFrame (v1.set 24 0x04) := by decide
/-- For `OnlyFourErrorsAreReported`: a run into each error by DECODE and by CONFIG. -/
theorem witness_errors : ((ready 16).Inv ∧ (ready 16).result = none ∧ State.reset.result = none) ∧
    resultOf (exec (.decode []) (ready 16)) = some (.err (.wrongLength 25 0)) ∧
    resultOf (exec (.decode (v1.set 0 0)) (ready 16)) = some (.err (.wrongHeader 0x0F 0)) ∧
    resultOf (exec (.decode (v1.set 24 1)) (ready 16)) = some (.err (.wrongEndByte 0x00 1)) ∧
    resultOf (exec (.config (some (-1))) State.reset) = some (.err (.configError 0 16 (-1))) :=
  ⟨⟨ready_inv 16, rfl, rfl⟩, by decide⟩
/-- The same by each check phase. -/
theorem witness_check_errors : (at' 16 .opened []).Inv ∧ (at' 0 .lenOk (v1.set 0 0)).Inv ∧
    (at' 16 .hdrOk (v1.set 24 1)).Inv ∧ (at' 16 .hdrOk v1).result = none ∧
    resultOf (exec .chkLen (at' 16 .opened [])) = some (.err (.wrongLength 25 0)) ∧
    resultOf (exec .chkHdr (at' 0 .lenOk (v1.set 0 0))) = some (.err (.wrongHeader 0x0F 0)) ∧
    resultOf (exec .chkEnd (at' 16 .hdrOk (v1.set 24 1))) = some (.err (.wrongEndByte 0x00 1)) :=
  ⟨opened_inv 16 [], at_inv _ _ _ (by constructor <;> simp [txnAt, Txn.start, v1]),
    at_inv _ _ _ (by constructor <;> simp [txnAt, Txn.start, v1, octetAt]), by decide⟩
/-- Integers with the same low `k` bits and the same bits from 188 on. -/
theorem bits_agree {x y k : Nat} (hlo : x % 2 ^ k = y % 2 ^ k) (hhi : x >>> 188 = y >>> 188) :
    ∀ b, (b < k ∨ 188 ≤ b) → x.testBit b = y.testBit b := by
  rintro b (hb | hb)
  · simpa [Nat.testBit_mod_two_pow, hb] using congrArg (Nat.testBit · b) hlo
  · simpa [Nat.testBit_shiftRight, Nat.add_sub_cancel' hb] using congrArg (Nat.testBit · (b - 188)) hhi

/-- Frames that differ in the unused nibble only, for NCH = 16, and in every channel as well, for NCH = 0. -/
theorem witness_ignored : (filled 0x55 0xF0).length = 25 ∧ (filled 0x55 0xFF).length = 25 ∧ (filled 0x00 0xF0).length = 25 ∧
    (∀ b, (b < 8 + 11 * (16 : Fin 17).val ∨ 188 ≤ b) →
      (frameInt (filled 0x55 0xF0)).testBit b = (frameInt (filled 0x55 0xFF)).testBit b) ∧
    (∀ b, (b < 8 + 11 * (0 : Fin 17).val ∨ 188 ≤ b) →
      (frameInt (filled 0x00 0xF0)).testBit b = (frameInt (filled 0x55 0xFF)).testBit b) :=
  ⟨by decide, by decide, by decide, bits_agree (by decide) (by decide), bits_agree (by decide) (by decide)⟩
theorem witness_flags : ValidFrame (filled 0x00 0xF0) ∧ ValidFrame (filled 0xFF 0xFF) ∧
    ∀ b ∈ [188, 189, 190, 191], (frameInt (filled 0x00 0xF0)).testBit b = (frameInt (filled 0xFF 0xFF)).testBit b := by
  decide
/-- Lane 15, bit 10 and lane 0, bit 0 (95_test_vectors.md 2.3, single bits). -/
theorem witness_lanes : ValidFrame (filled 0 0) ∧ ValidFrame ((filled 0 0).set 22 0x80) ∧ ValidFrame ((filled 0 0).set 1 0x01) ∧
    (frameInt (filled 0 0)).testBit (8 + 11 * 15 + 10) = false ∧
    (frameInt ((filled 0 0).set 22 0x80)).testBit (8 + 11 * 15 + 10) = true ∧
    (∀ j < 11, j ≠ 10 → (frameInt (filled 0 0)).testBit (8 + 11 * 15 + j) =
      (frameInt ((filled 0 0).set 22 0x80)).testBit (8 + 11 * 15 + j)) ∧
    (frameInt (filled 0 0)).testBit (8 + 11 * 0 + 0) = false ∧
    (frameInt ((filled 0 0).set 1 0x01)).testBit (8 + 11 * 0 + 0) = true ∧
    (∀ j < 11, (frameInt (filled 0 0)).testBit (8 + 11 * 0 + j) =
      (frameInt ((filled 0 0).set 22 0x80)).testBit (8 + 11 * 0 + j)) ∧
    (∀ j < 11, j ≠ 0 → (frameInt (filled 0 0)).testBit (8 + 11 * 0 + j) =
      (frameInt ((filled 0 0).set 1 0x01)).testBit (8 + 11 * 0 + j)) := by decide
theorem witness_reads : 0 + 25 ≤ v1.length ∧ 24 + 1 ≤ v1.length ∧ 25 + 0 ≤ v1.length ∧ v1.length < 24 + 2 ∧
    v1.length < 25 + 1 ∧ ([] : List Byte).length < 0 + 1 := by decide
theorem witness_channel_octets : v1.length = 25 ∧ chanShift 0 ≤ 5 ∧ chanShift 15 ≤ 5 ∧ 5 < chanShift 2 ∧
    5 < chanShift 13 := by decide
theorem witness_chkLen : (at' 16 .opened v1).Decoding (txnAt .opened v1) 16 v1 .opened ∧ v1.length = 25 ∧
    (at' 0 .opened (v1.take 24)).Decoding (txnAt .opened (v1.take 24)) 0 (v1.take 24) .opened ∧ (v1.take 24).length ≠ 25 ∧
    (at' 0 .opened (v1 ++ [0])).Decoding (txnAt .opened (v1 ++ [0])) 0 (v1 ++ [0]) .opened ∧ (v1 ++ [0]).length ≠ 25 :=
  ⟨at_is_decoding _ _ _, by decide, at_is_decoding _ _ _, by decide, at_is_decoding _ _ _, by decide⟩
theorem witness_chkHdr : (at' 16 .lenOk v1).Decoding (txnAt .lenOk v1) 16 v1 .lenOk ∧ octetAt v1 0 = 0x0F ∧
    (at' 0 .lenOk (v1.set 0 0x0E)).Decoding (txnAt .lenOk (v1.set 0 0x0E)) 0 (v1.set 0 0x0E) .lenOk ∧
    (v1.set 0 0x0E).length = 25 ∧ octetAt (v1.set 0 0x0E) 0 ≠ 0x0F :=
  ⟨at_is_decoding _ _ _, by decide, at_is_decoding _ _ _, by decide, by decide⟩
theorem witness_chkEnd : (at' 16 .hdrOk v1).Decoding (txnAt .hdrOk v1) 16 v1 .hdrOk ∧ octetAt v1 24 = 0x00 ∧
    (at' 0 .hdrOk (v1.set 24 0x01)).Decoding (txnAt .hdrOk (v1.set 24 0x01)) 0 (v1.set 24 0x01) .hdrOk ∧
    (v1.set 24 0x01).length = 25 ∧ octetAt (v1.set 24 0x01) 24 ≠ 0x00 :=
  ⟨at_is_decoding _ _ _, by decide, at_is_decoding _ _ _, by decide, by decide⟩
/-- For the extractors and the flag phases, with every channel retained and with none. -/
theorem witness_checked : (at' 0 .checked v1).Decoding (txnAt .checked v1) 0 v1 .checked ∧
    (at' 16 .checked v1).Decoding (txnAt .checked v1) 16 v1 .checked ∧ v1.length = 25 ∧ 15 < (16 : Fin 17).val ∧
    ¬ 0 < (0 : Fin 17).val := ⟨at_is_decoding _ _ _, at_is_decoding _ _ _, by decide⟩

/-- The transaction of P6 after ASM. -/
def assembled : Txn := { txnAt .checked s2 with f := some 0x7C0F83800C07C0F0E262430F }

/-- The transaction of P6 where EXT comes to the index `i`. -/
def extracting (i : BitVec 5) : Txn :=
  { assembled with acc := some (BitVec.ofNat 192 (frameInt s2 >>> (8 + 11 * i.toNat))), idx := some i }

theorem witness_dropHdr : (during 3 s2 assembled).Decoding assembled 3 s2 .checked ∧ s2.length = 25 ∧
    assembled.f = some 0x7C0F83800C07C0F0E262430F := ⟨⟨rfl, rfl, rfl, rfl, rfl, rfl⟩, by decide, rfl⟩
theorem witness_ext_first : (during 1 s2 (extracting 0)).Decoding (extracting 0) 1 s2 .checked ∧
    ∃ a, (extracting 0).acc = some a ∧ (extracting 0).idx = some 0 ∧ (0 : BitVec 5).toNat < (1 : Fin 17).val ∧
      a.toNat = frameInt s2 >>> (8 + 11 * (0 : BitVec 5).toNat) :=
  ⟨⟨rfl, rfl, rfl, rfl, rfl, rfl⟩, _, rfl, rfl, by decide, by decide⟩
theorem witness_ext_last : (during 16 s2 (extracting 15)).Decoding (extracting 15) 16 s2 .checked ∧
    ∃ a, (extracting 15).acc = some a ∧ (extracting 15).idx = some 15 ∧ (15 : BitVec 5).toNat < (16 : Fin 17).val ∧
      a.toNat = frameInt s2 >>> (8 + 11 * (15 : BitVec 5).toNat) :=
  ⟨⟨rfl, rfl, rfl, rfl, rfl, rfl⟩, _, rfl, rfl, by decide, by decide⟩
theorem witness_ext_loop : (during 0 s2 assembled).Decoding assembled 0 s2 .checked ∧
    (during 16 s2 assembled).Decoding assembled 16 s2 .checked ∧
    ∃ f, assembled.f = some f ∧ f.toNat = frameInt s2 :=
  ⟨⟨rfl, rfl, rfl, rfl, rfl, rfl⟩, ⟨rfl, rfl, rfl, rfl, rfl, rfl⟩, _, rfl, by decide⟩
theorem witness_emit : (during 0 s2 (filledTxn s2)).Decoding (filledTxn s2) 0 s2 .checked ∧
    (during 16 s2 (filledTxn s2)).Decoding (filledTxn s2) 16 s2 .checked ∧
    (∀ (i : Nat) (h : i < 16), i < (16 : Fin 17).val → (filledTxn s2).ch[i].isSome) ∧
    (filledTxn s2).failsafe = some true ∧ (filledTxn s2).frameLost = some false ∧ (filledTxn s2).ch18 = some false ∧
    (filledTxn s2).ch17 = some true :=
  ⟨⟨rfl, rfl, rfl, rfl, rfl, rfl⟩, ⟨rfl, rfl, rfl, rfl, rfl, rfl⟩, by intro i h _; simp [filledTxn], rfl, rfl, rfl, rfl⟩
/-- For `PhasesChangeOnlyTheirOwnValue`: a phase after which the DECODE goes on, and one that ends it. -/
theorem witness_phase_next : isCommand .flgFs = false ∧ (∃ u, exec .flgFs (at' 0 .checked v1) = .next u ∧ u.txn.isSome) ∧
    isCommand .chkLen = false ∧ ∃ u, exec .chkLen (at' 0 .opened []) = .next u ∧ u.txn = none :=
  ⟨rfl, ⟨_, rfl, rfl⟩, rfl, _, rfl, rfl⟩
/-- For `NoStepFaults`: states that meet the invariant, and a phase of each kind that faults on a frame cut short. -/
theorem witness_faults : (ready 16).Inv ∧ (at' 16 .opened v1).Inv ∧
    faultOf (exec .chkHdr (at' 0 .lenOk [])) = some (.outsideFrame 0 1) ∧
    faultOf (exec .chkEnd (at' 0 .hdrOk (v1.take 24))) = some (.outsideFrame 24 1) ∧
    faultOf (exec .asm (at' 0 .checked (v1.take 24))) = some (.outsideFrame 0 25) ∧
    faultOf (exec .extCh15 (at' 16 .checked (v1.take 22))) = some (.outsideFrame 21 2) ∧
    faultOf (exec .flgCh17 (at' 0 .checked (v1.take 23))) = some (.outsideFrame 23 1) :=
  ⟨ready_inv 16, opened_inv 16 v1, by decide⟩
theorem witness_ports : WellFormed Params.default (.config (some 127)) ∧ WellFormed Params.default (.config (some (-128))) ∧
    WellFormed Params.default (.decode v1) ∧
    encodePorts Params.default (.config (some (-128))) = some { cmd := 0, cfgN := some 0x80, frame := [] } ∧
    encodePorts Params.default (.decode v1) = some { cmd := 1, cfgN := none, frame := v1 } ∧
    decodePorts Params.default { cmd := 1, cfgN := some 3, frame := [] } = .instr (.decode []) ∧
    decodePorts Params.default { cmd := 0, cfgN := some 0xFF, frame := v1 } = .instr (.config (some (-1))) := by decide

/-- A READY instance of the given form with inputs waiting. -/
def waiting (f : Form) (inbox : List Input) : State :=
  { ready 16 with params := { Params.default with form := f }, inbox := inbox }

theorem witness_step_runs : readerMove State.reset.reader State.reset.result = none ∧
    (waiting .transaction [decodeInput v1]).txn = none ∧
    decodePorts (waiting .transaction []).params { cmd := 1, cfgN := none, frame := v1 } = .instr (.decode v1) ∧
    (waiting .transaction []).params.form = .transaction ∧ (waiting .accumulator []).params.form ≠ .transaction ∧
    (∀ frame, Instr.config none ≠ .decode frame) := ⟨rfl, rfl, by decide, rfl, by decide, fun _ => by simp⟩
theorem witness_next_phase : (during 16 v1 { txnAt .opened v1 with todo := [.chkLen] }).txn =
      some { txnAt .opened v1 with todo := [.chkLen] } ∧
    (during 16 v1 { txnAt .opened v1 with todo := [.chkLen] }).resetAsserted = false ∧
    readerMove (ready 16).reader (ready 16).result = none := by decide
theorem witness_phased : (waiting .accumulator [decodeInput v1]).Ready 16 ∧ (waiting .extractors [decodeInput []]).Ready 16 ∧
    (waiting .extractors []).params.form ≠ .transaction ∧ v1.length ≤ (waiting .accumulator []).params.lenMax ∧
    readerMove (ready 16).reader (ready 16).result = none ∧ readerMove (ready 16).reader none = none ∧
    (waiting .accumulator [decodeInput v1]).inbox = decodeInput v1 :: [] ∧ ([] : List Input).head? ≠ some .rst :=
  ⟨⟨rfl, rfl, rfl⟩, ⟨rfl, rfl, rfl⟩, by decide⟩
theorem witness_idle : readerMove State.reset.reader State.reset.result = none ∧ State.reset.txn = none ∧
    State.reset.inbox = [] := by decide
/-- A reset in front while a DECODE is in progress; and a step of a READY instance that takes none. -/
theorem witness_reset : (∃ s : State, s.txn.isSome ∧ readerMove s.reader s.result = none ∧ s.inbox = .rst :: []) ∧
    (∃ t, step (ready 16) = .next t) ∧ (ready 16).takesReset = false ∧ (ready 16).cfg ≠ .unconfigured ∧
    (∃ t, step dead = .next t) ∧ dead.takesReset = false ∧ dead.cfg ≠ .unconfigured :=
  ⟨⟨{ at' 16 .opened v1 with inbox := [.rst] }, rfl, rfl, rfl⟩, ⟨_, rfl⟩, rfl, by decide, ⟨_, rfl⟩, rfl, by decide⟩
/-- A step from inside a DECODE that meets the invariant. -/
theorem witness_inv_step : ∃ s t : State, s.Inv ∧ s.txn.isSome ∧ step s = .next t :=
  ⟨{ at' 16 .opened v1 with inbox := [.rst] }, _,
    ⟨(opened_inv 16 v1).count, (opened_inv 16 v1).canonical, (opened_inv 16 v1).idle, (opened_inv 16 v1).busy,
      (opened_inv 16 v1).answer⟩,
    rfl, rfl⟩
theorem witness_fixed_parameters : (∃ t, step State.reset = .next t) ∧
    WellFormed State.reset.params (.config (some 127)) ∧
    encodePorts State.reset.params (.config (some 127)) = some { cmd := 0, cfgN := some 0x7F, frame := [] } :=
  ⟨⟨_, rfl⟩, by decide⟩
theorem witness_err_kind : State.reset.result = none ∧ resultOf (exec (.decode []) (ready 16)) = some (.err (.wrongLength 25 0)) := by
  decide
theorem witness_nch_port : (ready 0).cfgNch = some 0 ∧ (ready 16).cfgNch = some 16 := by decide
theorem witness_read_outcomes : (reading .reading [.event (.readReturned .transportError)]).reader.phase = .reading ∧
    (reading .reading []).txn = none ∧ 0 < (v1.take 1).length ∧ (v1.take 1).length ≤ 25 ∧ 0 < v1.length ∧
    v1.length ≤ 25 := by decide
theorem witness_answers : (reading .decoding []).reader.phase = .decoding ∧
    ({ reading .decoding [] with result := some (decodeResult 0 v1) } : State).result =
      some (.ok { channels := [], failsafe := true, frameLost := false, ch17 := true, ch18 := false }) ∧
    ({ reading .decoding [] with result := some (decodeResult 0 []) } : State).result =
      some (.err (.wrongLength 25 0)) := by decide
theorem witness_loops : (reading .closing []).reader.phase = .closing ∧
    ((reading .closing []).reader.enabled = true ∧ (reading .closing []).reader.retry = true) ∧
    (reading (.outerTop false) []).reader.phase = .outerTop false ∧ (reading (.outerTop true) []).reader.phase = .outerTop true ∧
    (reading .innerTop []).reader.phase = .innerTop := by decide
/-- A reader about to close or to open, with either flag false or the session not open. -/
theorem witness_loops_end :
    (∀ enabled retry sessionOpen, ∃ s : State, s.reader.phase = .closing ∧ s.reader.enabled = enabled ∧
      s.reader.retry = retry ∧ s.reader.sessionOpen = sessionOpen) ∧
    (∀ enabled retry first, ∃ s : State, s.reader.phase = .outerTop first ∧ s.reader.enabled = enabled ∧
      s.reader.retry = retry) ∧
    (∀ enabled, ∃ s : State, s.reader.phase = .innerTop ∧ s.reader.enabled = enabled) :=
  ⟨fun b c o => ⟨{ ready 16 with reader := { Reader.reset with phase := .closing, enabled := b, retry := c, sessionOpen := o } },
      rfl, rfl, rfl, rfl⟩,
    fun b c f => ⟨{ ready 16 with reader := { Reader.reset with phase := .outerTop f, enabled := b, retry := c } }, rfl, rfl, rfl⟩,
    fun b => ⟨{ ready 16 with reader := { Reader.reset with phase := .innerTop, enabled := b } }, rfl, rfl⟩⟩
/-- For `HostEventsMoveTheReader`: an event of each kind where its call waits, and a flip of `enabled` during a READ. -/
theorem witness_events : (reading .opening [.event (.openReturned true)]).txn = none ∧
    (reading .opening [.event (.openReturned false)]).inbox = .event (.openReturned false) :: [] ∧
    (reading .opening []).reader.phase = .opening ∧ (reading .dispatching []).reader.phase = .dispatching ∧
    (reading .sleeping []).reader.phase = .sleeping ∧
    readerMove (reading .reading []).reader (reading .reading []).result = none := by decide
/-- For `ConstructionPresentsConfig`: a configuration that omits all it can, from reset and after a stop. -/
theorem witness_construction :
    (State.reset.reader.phase = .absent ∧ State.reset.txn = none ∧ WellFormed State.reset.params (.config none) ∧
      WellFormed State.reset.params (.config (some 17))) ∧
    (reading (.stopped .sinkFailure) []).reader.phase = .stopped .sinkFailure ∧
    ({ reading .constructing [] with result := some .accepted } : State).result = some .accepted ∧
    (reading .constructing []).reader.phase = .constructing ∧
    resultOf (exec (.config (some 17)) State.reset) = some (.err (.configError 0 16 17)) := by decide
theorem witness_scenarios : (reading .reading []).Ready 16 ∧ (reading .reading []).params.form = .transaction ∧
    25 ≤ (reading .reading []).params.lenMax ∧ (reading .reading []).reader.enabled = true ∧
    (reading .reading []).reader.retry = true ∧ (reading .reading []).reader.sessionOpen = true ∧
    ValidFrame s1 ∧ (s1.set 0 0x00).length = 25 ∧ octetAt (s1.set 0 0x00) 0 ≠ 0x0F := ⟨⟨rfl, rfl, rfl⟩, by decide⟩

end Sys2Proof.Tests
end

section
/-! DECODE in closed form (40_commands.md R104): each phase run on a DECODE in progress, the phases one after the other,
and the command as a whole. The properties of R105 and R108 are read off the closed form. -/

namespace Sys2Proof.Machine

open Sys2Proof

/-! ### A DECODE in progress -/

@[simp] theorem State.withTxn_withTxn (s : State) (t w : Txn) : (s.withTxn t).withTxn w = s.withTxn w := rfl
@[simp] theorem State.withTxn_closeTxn (s : State) (t : Txn) : (s.withTxn t).closeTxn = s.closeTxn := rfl

/-- New transient values leave the DECODE in progress, at the stage they say. -/
theorem State.Decoding.withTxn {s : State} {t w : Txn} {n : Fin 17} {frame : List Byte} {st st' : Stage}
    (h : s.Decoding t n frame st) (hl : w.len = t.len) (hs : w.stage = st') : (s.withTxn w).Decoding w n frame st' :=
  ⟨rfl, h.cfg, h.nch, h.mem, hl.trans h.len, hs⟩

theorem State.Decoding.withTxn_self {s : State} {t : Txn} {n : Fin 17} {frame : List Byte} {st : Stage}
    (h : s.Decoding t n frame st) : s.withTxn t = s := by
  rw [State.withTxn, ← h.txn]

/-- At its stage a phase runs on the transient values and the channel count of the DECODE. -/
theorem State.Decoding.atStage_runs {s : State} {t : Txn} {n : Fin 17} {frame : List Byte} {st : Stage}
    (h : s.Decoding t n frame st) (k : Txn → Fin 17 → Answer) : atStage st s k = k t n :=
  atStage_eq k h.txn h.cfg h.nch h.stage

/-- A phase that goes on inside the DECODE hands the transaction on to the phases after it. -/
theorem State.Decoding.goesOn {s : State} {t w : Txn} {n : Fin 17} {frame : List Byte} {st st' : Stage}
    {f : State → Answer} (h : s.Decoding t n frame st) (hf : f s = .next (s.withTxn w)) (hl : w.len = t.len)
    (hs : w.stage = st') :
    (∀ fs, runPhases (.next s) (f :: fs) = runPhases (.next (s.withTxn w)) fs) ∧
      (s.withTxn w).Decoding w n frame st' :=
  ⟨fun fs => by rw [runPhases_cons, thenPhase_open f h.txn, hf], h.withTxn hl hs⟩

/-- A phase that ends the DECODE with an answer skips the phases after it (41_validate.md R123). -/
theorem State.Decoding.ends {s : State} {t : Txn} {n : Fin 17} {frame : List Byte} {st : Stage} {f : State → Answer}
    {r : Result} (h : s.Decoding t n frame st) (hf : f s = .next (s.closeTxn.answer r)) (fs : List (State → Answer)) :
    runPhases (.next s) (f :: fs) = .next (s.closeTxn.answer r) := by
  rw [runPhases_cons, thenPhase_open f h.txn, hf, runPhases_closed fs rfl]

section Phases

variable {s : State} {t : Txn} {n : Fin 17} {frame : List Byte}

/-! ### The checks -/

theorem execChkLen_passes (h : s.Decoding t n frame .opened) (hl : frame.length = 25) :
    execChkLen s = .next (s.withTxn { t with stage := .lenOk }) := by
  rw [execChkLen, h.atStage_runs, h.len]
  exact if_pos hl

theorem execChkLen_fails (h : s.Decoding t n frame .opened) (hl : frame.length ≠ 25) :
    execChkLen s = .next (s.closeTxn.answer (.err (.wrongLength 25 frame.length))) := by
  rw [execChkLen, h.atStage_runs, h.len]
  exact if_neg hl

theorem execChkHdr_passes (h : s.Decoding t n frame .lenOk) (hl : frame.length = 25) (hb : octetAt frame 0 = 0x0F) :
    execChkHdr s = .next (s.withTxn { t with stage := .hdrOk }) := by
  rw [execChkHdr, h.atStage_runs, loadOctet_frame _ h.mem (by omega)]
  exact if_pos hb

theorem execChkHdr_fails (h : s.Decoding t n frame .lenOk) (hl : frame.length = 25) (hb : octetAt frame 0 ≠ 0x0F) :
    execChkHdr s = .next (s.closeTxn.answer (.err (.wrongHeader 0x0F (octetAt frame 0).toNat))) := by
  rw [execChkHdr, h.atStage_runs, loadOctet_frame _ h.mem (by omega)]
  exact if_neg hb

theorem execChkEnd_passes (h : s.Decoding t n frame .hdrOk) (hl : frame.length = 25) (hb : octetAt frame 24 = 0x00) :
    execChkEnd s = .next (s.withTxn { t with stage := .checked }) := by
  rw [execChkEnd, h.atStage_runs, loadOctet_frame _ h.mem (by omega)]
  exact if_pos hb

theorem execChkEnd_fails (h : s.Decoding t n frame .hdrOk) (hl : frame.length = 25) (hb : octetAt frame 24 ≠ 0x00) :
    execChkEnd s = .next (s.closeTxn.answer (.err (.wrongEndByte 0x00 (octetAt frame 24).toNat))) := by
  rw [execChkEnd, h.atStage_runs, loadOctet_frame _ h.mem (by omega)]
  exact if_neg hb

/-! ### The accumulator -/

/-- ASM (42_unpack.md R130). -/
theorem execAsm_eq (h : s.Decoding t n frame .checked) (hl : frame.length = 25) :
    execAsm s = .next (s.withTxn { t with f := some (BitVec.ofNat 200 (frameInt frame)) }) := by
  have hF : frameInt frame / 256 ^ 0 % 256 ^ 25 = frameInt frame := by
    rw [Nat.pow_zero, Nat.div_one, Nat.mod_eq_of_lt (hl ▸ frameInt_lt frame)]
  rw [execAsm, h.atStage_runs, Config.frameLen, loadOctets_frame _ h.mem (by omega), hF]

/-- The 200 bits of F hold all of the frame's integer (42_unpack.md R130). -/
theorem toNat_ofNat_frameInt (hl : frame.length = 25) : (BitVec.ofNat 200 (frameInt frame)).toNat = frameInt frame := by
  rw [BitVec.toNat_ofNat, Nat.mod_eq_of_lt (by simpa [hl] using frameInt_lt frame)]

theorem execDropHdr_eq {f : BitVec 200} (h : s.Decoding t n frame .checked) (hf : t.f = some f) :
    execDropHdr s = .next (s.withTxn { t with acc := some ((f >>> 8).setWidth 192), idx := some 0 }) := by
  rw [execDropHdr, h.atStage_runs, hf]

/-- The 192 bits of ACC hold all of `F >> 8` (42_unpack.md R131). -/
theorem dropHdr_toNat (f : BitVec 200) : ((f >>> 8).setWidth 192).toNat = f.toNat >>> 8 := by
  have hf := f.isLt
  rw [BitVec.toNat_setWidth, BitVec.toNat_ushiftRight, Nat.shiftRight_eq_div_pow]
  omega

theorem execExt_eq {a : BitVec 192} {i : BitVec 5} (h : s.Decoding t n frame .checked) (ha : t.acc = some a)
    (hi : t.idx = some i) (hlt : i.toNat < n.val) :
    execExt s = .next (s.withTxn { t with
      ch := t.ch.setIfInBounds i.toNat (some (a.setWidth 11)), acc := some (a >>> 11), idx := some (i + 1) }) := by
  rw [execExt, h.atStage_runs, ha, hi]
  exact if_pos hlt

/-! ### The loop of EXT -/

/-- The slots with channels 0 to `k - 1` of the frame integer `F` filled in, the others as they are in `ch`. -/
def fillSlots (F k : Nat) (ch : Vector (Option Chan) 16) : Vector (Option Chan) 16 :=
  Vector.ofFn fun i => if i.val < k then some (chanOfInt F i.val) else ch[i]

theorem getElem_fillSlots (F k : Nat) (ch : Vector (Option Chan) 16) (i : Nat) (hi : i < 16) :
    (fillSlots F k ch)[i] = if i < k then some (chanOfInt F i) else ch[i] := by
  simp [fillSlots]

theorem fillSlots_zero (F : Nat) (ch : Vector (Option Chan) 16) : fillSlots F 0 ch = ch :=
  Vector.ext fun i hi => by simp [getElem_fillSlots]

theorem fillSlots_succ (F k : Nat) (ch : Vector (Option Chan) 16) :
    (fillSlots F k ch).setIfInBounds k (some (chanOfInt F k)) = fillSlots F (k + 1) ch :=
  Vector.ext fun i hi => by
    rw [Vector.getElem_setIfInBounds, getElem_fillSlots, getElem_fillSlots]
    rcases Nat.lt_trichotomy k i with hk | rfl | hk
    · rw [if_neg (by omega), if_neg (by omega), if_neg (by omega)]
    · rw [if_pos rfl, if_pos (by omega)]
    · rw [if_neg (by omega), if_pos hk, if_pos (by omega)]

/-- Where ACC is `F >> 8`, the low 11 bits of ACC shifted `k` times are channel `k` (42_unpack.md R132). -/
theorem setWidth_ushiftRight_eq_chanOfInt {a : BitVec 192} {F : Nat} (ha : a.toNat = F >>> 8) (k : Nat) :
    (a >>> (11 * k)).setWidth 11 = chanOfInt F k := by
  apply BitVec.eq_of_toNat_eq
  rw [BitVec.toNat_setWidth, BitVec.toNat_ushiftRight, ha, ← Nat.shiftRight_add, chanOfInt, BitVec.toNat_ofNat,
    Config.chBits, Config.chMask, show 0x7FF = 2 ^ 11 - 1 from rfl, Nat.and_two_pow_sub_one_eq_mod, Nat.mod_mod]

/-- The transient values after `k` times EXT from ACC = `a` and IDX = 0, where `F` is the frame's integer. -/
def Txn.afterExts (t : Txn) (F : Nat) (a : BitVec 192) (k : Nat) : Txn :=
  { t with ch := fillSlots F k t.ch, acc := some (a >>> (11 * k)), idx := some (BitVec.ofNat 5 k) }

theorem Txn.afterExts_zero {a : BitVec 192} (F : Nat) (ha : t.acc = some a) (hi : t.idx = some 0) :
    t.afterExts F a 0 = t := by
  rw [Txn.afterExts, fillSlots_zero, Nat.mul_zero, BitVec.ushiftRight_zero, ← ha]
  exact congrArg (fun i => { t with idx := i }) hi.symm

theorem State.Decoding.afterExts {st : Stage} (h : s.Decoding t n frame st) (F : Nat) (a : BitVec 192) (k : Nat) :
    (s.withTxn (t.afterExts F a k)).Decoding (t.afterExts F a k) n frame st :=
  h.withTxn rfl h.stage

/-- `k` times EXT, for `k` up to NCH, by induction on `k` (42_unpack.md R133). -/
theorem runPhases_replicate_execExt {a : BitVec 192} (h : s.Decoding t n frame .checked) (ha : t.acc = some a)
    (hi : t.idx = some 0) (hF : a.toNat = frameInt frame >>> 8) (k : Nat) (hk : k ≤ n.val) :
    runPhases (.next s) (List.replicate k execExt) = .next (s.withTxn (t.afterExts (frameInt frame) a k)) := by
  induction k with
  | zero =>
    rw [Txn.afterExts_zero _ ha hi, h.withTxn_self, List.replicate_zero, runPhases_nil]
  | succ k ih =>
    have hk' : (BitVec.ofNat 5 k).toNat = k := by
      rw [BitVec.toNat_ofNat]
      omega
    have hd := h.afterExts (frameInt frame) a k
    obtain ⟨hrun, -⟩ := hd.goesOn (execExt_eq hd rfl rfl (by omega)) rfl h.stage
    rw [List.replicate_succ', runPhases_append, ih (by omega), hrun, runPhases_nil]
    simp [Txn.afterExts, hk', setWidth_ushiftRight_eq_chanOfInt hF, fillSlots_succ,
      ← BitVec.shiftRight_add, Nat.mul_succ, BitVec.ofNat_add]

/-! ### The flags and the result -/

theorem flagPhase_eq (h : s.Decoding t n frame .checked) (hl : frame.length = 25) (mask : Byte)
    (put : Txn → Bool → Txn) :
    flagPhase mask put s = .next (s.withTxn (put t (flagOf mask (octetAt frame Config.flagsOff)))) := by
  rw [flagPhase, h.atStage_runs, loadOctet_frame _ h.mem (by simp [Config.flagsOff, hl])]

theorem execEmit_eq {d : DecodedFrame} (h : s.Decoding t n frame .checked) (hd : t.record n.val = some d) :
    execEmit s = .next (s.closeTxn.answer (.ok d)) := by
  rw [execEmit, h.atStage_runs, hd]

/-- The first `n` slots, once filled, hold channels 0 to `n - 1`. -/
theorem allValues_fillSlots (F : Nat) (n : Fin 17) (ch : Vector (Option Chan) 16) :
    allValues ((fillSlots F n.val ch).toList.take n.val) = some ((List.range n.val).map (chanOfInt F)) := by
  have hslots : (fillSlots F n.val ch).toList.take n.val = ((List.range n.val).map (chanOfInt F)).map some := by
    apply List.ext_getElem
    · simp
      omega
    · intro i hi hi'
      have hin : i < n.val := by simpa using hi'
      simp [getElem_fillSlots, hin]
  rw [hslots, allValues_map_some]

/-- From the slots on: the flags and EMIT deliver the record of the frame (43_flags.md R160 to R166). -/
theorem runPhases_flags_emit (h : s.Decoding t n frame .checked) (hl : frame.length = 25)
    (hc : allValues (t.ch.toList.take n.val) = some (decodedFrame n.val frame).channels) :
    runPhases (.next s) [execFlgFs, execFlgFl, execFlgCh18, execFlgCh17, execEmit] =
      .next (s.closeTxn.answer (.ok (decodedFrame n.val frame))) := by
  obtain ⟨runFs, hfs⟩ := h.goesOn (f := execFlgFs) (flagPhase_eq h hl _ _) rfl h.stage
  obtain ⟨runFl, hfl⟩ := hfs.goesOn (f := execFlgFl) (flagPhase_eq hfs hl _ _) rfl h.stage
  obtain ⟨run18, h18⟩ := hfl.goesOn (f := execFlgCh18) (flagPhase_eq hfl hl _ _) rfl h.stage
  obtain ⟨run17, h17⟩ := h18.goesOn (f := execFlgCh17) (flagPhase_eq h18 hl _ _) rfl h.stage
  have hemit := execEmit_eq (d := decodedFrame n.val frame) h17 (by simp [Txn.record, hc, decodedFrame])
  rw [runFs, runFl, run18, run17, h17.ends hemit]
  rfl

/-- The phases after the checks deliver the record of the frame, whatever values stood there before. -/
theorem runPhases_unpack (h : s.Decoding t n frame .checked) (hl : frame.length = 25) :
    runPhases (.next s) ([execAsm, execDropHdr] ++ List.replicate n.val execExt ++
        [execFlgFs, execFlgFl, execFlgCh18, execFlgCh17, execEmit]) =
      .next (s.closeTxn.answer (.ok (decodedFrame n.val frame))) := by
  obtain ⟨runAsm, hasm⟩ := h.goesOn (execAsm_eq h hl) rfl h.stage
  obtain ⟨runDrop, hdrop⟩ := hasm.goesOn (execDropHdr_eq hasm rfl) rfl h.stage
  have hacc : ((BitVec.ofNat 200 (frameInt frame) >>> 8).setWidth 192).toNat = frameInt frame >>> 8 := by
    rw [dropHdr_toNat, toNat_ofNat_frameInt hl]
  rw [runPhases_append, List.cons_append, List.cons_append, List.nil_append, runAsm, runDrop,
    runPhases_replicate_execExt hdrop rfl rfl hacc n.val le_rfl,
    runPhases_flags_emit (hdrop.afterExts _ _ n.val) hl (allValues_fillSlots _ n _)]
  rfl

/-! ### DECODE -/

theorem decodeResult_of_wrongLength (n : Nat) (hl : frame.length ≠ 25) :
    decodeResult n frame = .err (.wrongLength 25 frame.length) := if_pos hl

theorem decodeResult_of_wrongHeader (n : Nat) (hl : frame.length = 25) (hh : octetAt frame 0 ≠ 0x0F) :
    decodeResult n frame = .err (.wrongHeader 0x0F (octetAt frame 0).toNat) := by
  rw [decodeResult, if_neg (not_not_intro hl), if_pos hh]

theorem decodeResult_of_wrongEndByte (n : Nat) (hl : frame.length = 25) (hh : octetAt frame 0 = 0x0F)
    (he : octetAt frame 24 ≠ 0x00) : decodeResult n frame = .err (.wrongEndByte 0x00 (octetAt frame 24).toNat) := by
  rw [decodeResult, if_neg (not_not_intro hl), if_neg (not_not_intro hh), if_pos he]

theorem decodeResult_of_valid (n : Nat) (hl : frame.length = 25) (hh : octetAt frame 0 = 0x0F)
    (he : octetAt frame 24 = 0x00) : decodeResult n frame = .ok (decodedFrame n frame) := by
  rw [decodeResult, if_neg (not_not_intro hl), if_neg (not_not_intro hh), if_neg (not_not_intro he)]

/-- The three checks stand before the phases that unpack (40_commands.md R103). -/
theorem decodePhases_eq (n : Nat) : decodePhases n = execChkLen :: execChkHdr :: execChkEnd ::
    ([execAsm, execDropHdr] ++ List.replicate n execExt ++
      [execFlgFs, execFlgFl, execFlgCh18, execFlgCh17, execEmit]) := rfl

/-- The phases of a DECODE just opened end with the closed form of 40_commands.md R104 as their answer: the first check
that fails ends the DECODE, and with none failing the unpacking delivers the record. -/
theorem runPhases_decodePhases (h : s.Decoding t n frame .opened) :
    runPhases (.next s) (decodePhases n.val) = .next (s.closeTxn.answer (decodeResult n.val frame)) := by
  rw [decodePhases_eq]
  by_cases hl : frame.length = 25
  case neg => rw [h.ends (execChkLen_fails h hl), decodeResult_of_wrongLength _ hl]
  obtain ⟨runLen, h1⟩ := h.goesOn (execChkLen_passes h hl) rfl rfl
  rw [runLen]
  by_cases hh : octetAt frame 0 = 0x0F
  case neg => rw [h1.ends (execChkHdr_fails h1 hl hh), decodeResult_of_wrongHeader _ hl hh, State.withTxn_closeTxn]
  obtain ⟨runHdr, h2⟩ := h1.goesOn (execChkHdr_passes h1 hl hh) rfl rfl
  rw [runHdr]
  by_cases he : octetAt frame 24 = 0x00
  case neg =>
    rw [h2.ends (execChkEnd_fails h2 hl he), decodeResult_of_wrongEndByte _ hl hh he, State.withTxn_closeTxn,
      State.withTxn_closeTxn]
  obtain ⟨runEnd, h3⟩ := h2.goesOn (execChkEnd_passes h2 hl he) rfl rfl
  rw [runEnd, runPhases_unpack h3 hl, decodeResult_of_valid _ hl hh he]
  rfl

/-- DECODE where READY (40_commands.md R104): its closed form on the result ports, no transaction and no frame left, and
nothing else touched. -/
theorem exec_decode_eq (h : s.Ready n) (frame : List Byte) :
    exec (.decode frame) s = .next (s.closeTxn.answer (decodeResult n.val frame)) := by
  have hrun : exec (.decode frame) s = runPhases (openTxn .transaction frame s) (decodePhases n.val) := by
    change execDecode frame s = _
    rw [execDecode, h.nch]
  rw [hrun, openTxn_eq .transaction frame h.cfg h.nch h.txn]
  exact runPhases_decodePhases ⟨rfl, h.cfg, h.nch, rfl, rfl, rfl⟩

/-- A DECODE leaves the block as ready as it was (60_exceptions.md R209). -/
theorem State.Ready.closeTxn_answer (h : s.Ready n) (r : Result) : (s.closeTxn.answer r).Ready n :=
  ⟨h.cfg, h.nch, rfl⟩

end Phases

/-! ### The obligations of 40_commands.md -/

/-- Settles O9: each property is read off the closed form of DECODE, which holds again on the state a DECODE leaves; a
channel is at most 2047 because it is 11 bits wide. -/
theorem decodeProperties : Obligations.DecodeProperties := by
  intro frame n s h
  refine ⟨_, _, exec_decode_eq h frame, exec_decode_eq (h.closeTxn_answer _) frame, rfl, fun hl hh he => ?_,
    fun hl => ?_, fun hl hh => ?_⟩
  · refine ⟨decodedFrame n.val frame, congrArg some (decodeResult_of_valid _ hl hh he), ?_, fun v _ => ?_⟩
    · simp [decodedFrame]
    · exact Nat.le_of_lt_succ v.isLt
  · exact congrArg some (decodeResult_of_wrongLength _ hl)
  · exact congrArg some (decodeResult_of_wrongHeader _ hl hh)

/-- Settles O10: the closed form of DECODE names the frame and NCH alone, and a state a DECODE has left differs from the
one before only in what the next DECODE overwrites. -/
theorem decodeForgetsEarlierFrames : Obligations.DecodeForgetsEarlierFrames := by
  intro f g n s u hs hu
  have ht := hs.closeTxn_answer (decodeResult n.val f)
  refine ⟨_, _, exec_decode_eq hs f, exec_decode_eq hu f, rfl, ht, ?_⟩
  rw [exec_decode_eq ht g, exec_decode_eq hs g]
  rfl

end Sys2Proof.Machine
end


section
/-! The checks of 41_validate.md: each phase on a DECODE in progress, and which outcome the three of them give a DECODE.
All of it is read off the lemmas about the checks and the closed form of DECODE above. -/

namespace Sys2Proof.Machine

open Sys2Proof

/-! ### What a check leaves unchanged -/

theorem State.withTxn_sameOutside (s : State) (t : Txn) : SameOutside s (s.withTxn t) := ⟨rfl, rfl, rfl⟩

theorem State.closeTxn_answer_sameOutside (s : State) (r : Result) : SameOutside s (s.closeTxn.answer r) :=
  ⟨rfl, rfl, rfl⟩

/-- A check with condition `P` that ends the DECODE with the error `e` where `P` fails, and else changes the transient
values alone (41_validate.md R120 to R122): its two outcomes, and what both leave unchanged. -/
theorem check_outcome {P : Prop} {i : Instr} {s : State} {w : Txn} {e : BlockError}
    (hpass : P → exec i s = .next (s.withTxn w)) (hfail : ¬ P → exec i s = .next (s.closeTxn.answer (.err e))) :
    ∃ u : State, exec i s = .next u ∧ u.cfg = s.cfg ∧ u.nch = s.nch ∧ SameOutside s u ∧
      (¬ P → u.txn = none ∧ u.result = some (.err e)) ∧ (P → u = s.withTxn w) := by
  by_cases hP : P
  · exact ⟨_, hpass hP, rfl, rfl, s.withTxn_sameOutside w, fun hn => absurd hP hn, fun _ => rfl⟩
  · exact ⟨_, hfail hP, rfl, rfl, s.closeTxn_answer_sameOutside _, fun _ => ⟨rfl, rfl⟩, fun hp => absurd hp hP⟩

/-! ### A valid frame as header and end octet -/

/-- `F & MASK` keeps the low octet of `F` and octet 24 (30_encoding.md R79). -/
theorem and_validMask (F : Nat) : F &&& validMask = F / 256 ^ 24 % 256 * 2 ^ 192 + F % 256 := by
  have hhigh : validMask / 2 ^ 192 = 2 ^ 8 - 1 := by decide
  have hlow : validMask % 2 ^ 192 = 2 ^ 8 - 1 := by decide
  rw [← Nat.div_add_mod (F &&& validMask) (2 ^ 192), Nat.and_div_two_pow, Nat.and_mod_two_pow, hhigh, hlow,
    Nat.and_two_pow_sub_one_eq_mod, Nat.and_two_pow_sub_one_eq_mod]
  omega

/-- The match and mask form of a valid frame says its header and its end octet (30_encoding.md R79, 41_validate.md R124). -/
theorem validFrame_iff (frame : List Byte) :
    ValidFrame frame ↔ frame.length = 25 ∧ octetAt frame 0 = 0x0F ∧ octetAt frame 24 = 0x00 := by
  refine and_congr_right fun _ => ?_
  rw [and_validMask, validMatch, ← BitVec.toNat_inj, ← BitVec.toNat_inj, octetAt_toNat, octetAt_toNat]
  change _ ↔ _ = 15 ∧ _ = 0
  omega

/-! ### The outcome of a DECODE -/

/-- The closed form is a record exactly where no check fails (41_validate.md R124). -/
theorem decodeResult_isOk_iff (n : Nat) (frame : List Byte) : (∃ d, decodeResult n frame = .ok d) ↔
    frame.length = 25 ∧ octetAt frame 0 = 0x0F ∧ octetAt frame 24 = 0x00 := by
  by_cases hl : frame.length = 25
  case neg => exact iff_of_false (by simp [decodeResult_of_wrongLength n hl]) fun ⟨h, _⟩ => hl h
  by_cases hh : octetAt frame 0 = 0x0F
  case neg => exact iff_of_false (by simp [decodeResult_of_wrongHeader n hl hh]) fun ⟨_, h, _⟩ => hh h
  by_cases he : octetAt frame 24 = 0x00
  case neg => exact iff_of_false (by simp [decodeResult_of_wrongEndByte n hl hh he]) fun ⟨_, _, h⟩ => he h
  exact iff_of_true ⟨_, decodeResult_of_valid n hl hh he⟩ ⟨hl, hh, he⟩

/-! ### The obligations of 41_validate.md -/

/-- Settles O6: the closed form of DECODE, read in each of its four cases. -/
theorem firstFailureIsReported : Obligations.FirstFailureIsReported := by
  intro frame n s h
  exact ⟨_, exec_decode_eq h frame,
    fun hl => congrArg some (decodeResult_of_wrongLength _ hl),
    fun hl hh => congrArg some (decodeResult_of_wrongHeader _ hl hh),
    fun hl hh he => congrArg some (decodeResult_of_wrongEndByte _ hl hh he),
    fun hl hh he => ⟨_, congrArg some (decodeResult_of_valid _ hl hh he)⟩⟩

/-- Settles O7: the closed form is a record exactly where the three checks pass, and the mask picks out the two octets
they compare. -/
theorem acceptedExactlyTheValidFrames : Obligations.AcceptedExactlyTheValidFrames := by
  intro frame n s h
  have hok := decodeResult_isOk_iff n.val frame
  refine ⟨_, exec_decode_eq h frame, ?_⟩
  simp only [State.answer_result, Option.some.injEq]
  exact ⟨hok, hok.trans (validFrame_iff frame).symm⟩

/-- Settles O21: CHK.LEN passes or fails by the length alone. -/
theorem chkLenComparesTheLength : Obligations.ChkLenComparesTheLength := by
  intro s t n frame h
  exact check_outcome (execChkLen_passes h) (execChkLen_fails h)

/-- Settles O22: with 25 octets presented, CHK.HDR passes or fails by octet 0. -/
theorem chkHdrComparesTheHeader : Obligations.ChkHdrComparesTheHeader := by
  intro s t n frame h hl
  exact check_outcome (execChkHdr_passes h hl) (execChkHdr_fails h hl)

/-- Settles O23: with 25 octets presented, CHK.END passes or fails by octet 24. -/
theorem chkEndComparesTheEndByte : Obligations.ChkEndComparesTheEndByte := by
  intro s t n frame h hl
  exact check_outcome (execChkEnd_passes h hl) (execChkEnd_fails h hl)

end Sys2Proof.Machine
end


section
/-! The accumulator of 42_unpack.md: what the header and the end octet say of the frame's integer, and the two phases
that make the accumulator from it. -/

namespace Sys2Proof.Machine

open Sys2Proof

/-- A frame of 25 octets with the end octet 0 is an integer below `2^192` (42_unpack.md R130). -/
theorem frameInt_lt_of_endByte {frame : List Byte} (hl : frame.length = 25) (he : octetAt frame 24 = 0x00) :
    frameInt frame < 2 ^ 192 := by
  have hF : frameInt frame < 256 ^ 25 := hl ▸ frameInt_lt frame
  have hend : frameInt frame / 256 ^ 24 % 256 = 0 := by rw [← octetAt_toNat, he]; rfl
  omega

/-- The header is the low octet of the frame's integer (42_unpack.md R130). -/
theorem frameInt_mod_of_header {frame : List Byte} (hh : octetAt frame 0 = 0x0F) : frameInt frame % 256 = 15 := by
  have hlow := octetAt_toNat frame 0
  rw [hh, Nat.pow_zero, Nat.div_one] at hlow
  exact hlow.symm

/-! ### The obligations of 42_unpack.md -/

/-- Settles O24: ASM and DROPHDR each change the transient values alone, 200 bits hold the integer of 25 octets, and 192
bits hold it without its low octet. -/
theorem asmAndDropHdrMakeTheAccumulator : Obligations.AsmAndDropHdrMakeTheAccumulator := by
  intro s t n frame h hl
  have hF := toNat_ofNat_frameInt hl
  refine ⟨_, hF, execAsm_eq h hl, fun hh he => ?_, fun g hg => ⟨_, dropHdr_toNat g, execDropHdr_eq h hg⟩⟩
  rw [hF]
  exact ⟨frameInt_lt_of_endByte hl he, frameInt_mod_of_header hh⟩

end Sys2Proof.Machine
end


section
/-! The flags and the record of 43_flags.md: the flag phases as their masks of octet 23, and EMIT on slots that hold
values. -/

namespace Sys2Proof.Machine

open Sys2Proof

/-! ### The slots EMIT collects -/

/-- Slots that all hold a value give a list of values. -/
theorem exists_allValues_of_isSome {α : Type} {xs : List (Option α)} (h : ∀ x ∈ xs, x.isSome) :
    ∃ vs, allValues xs = some vs := by
  induction xs with
  | nil => exact ⟨[], rfl⟩
  | cons x xs ih =>
    obtain ⟨hx, hxs⟩ := List.forall_mem_cons.mp h
    obtain ⟨v, rfl⟩ := Option.isSome_iff_exists.mp hx
    obtain ⟨vs, hvs⟩ := ih hxs
    exact ⟨v :: vs, by simp only [allValues, hvs]⟩

/-- The slots below the channel count give a list of values once each of them holds one (43_flags.md R166). -/
theorem exists_allValues_slots {ch : Vector (Option Chan) 16} {n : Nat}
    (h : ∀ (i : Nat) (hi : i < 16), i < n → ch[i].isSome) : ∃ cs, allValues (ch.toList.take n) = some cs := by
  apply exists_allValues_of_isSome
  intro x hx
  obtain ⟨i, hi, rfl⟩ := List.mem_take_iff_getElem.mp hx
  obtain ⟨hin, hi⟩ := lt_min_iff.mp hi
  exact h i (by simpa using hi) hin

theorem length_of_allValues_slots {ch : Vector (Option Chan) 16} {n : Fin 17} {cs : List Chan}
    (h : allValues (ch.toList.take n.val) = some cs) : cs.length = n.val := by
  have hlen := congrArg List.length (allValues_eq_some h)
  rw [List.length_take, Vector.length_toList, List.length_map] at hlen
  omega

/-- The values stand in the order of their slots. -/
theorem getElem?_of_allValues_slots {ch : Vector (Option Chan) 16} {n : Nat} {cs : List Chan}
    (h : allValues (ch.toList.take n) = some cs) {i : Nat} (hi : i < 16) (hin : i < n) : cs[i]? = ch[i] := by
  have hslot : some ch[i] = cs[i]?.map some := by
    rw [← List.getElem?_map, ← allValues_eq_some h, List.getElem?_take_of_lt hin]
    simp [hi]
  obtain ⟨c, hc, hci⟩ := Option.map_eq_some_iff.mp hslot.symm
  exact hc.trans hci

/-! ### The obligations of 43_flags.md -/

/-- Settles O29: each flag phase is `flagPhase` at its mask, which writes the flag from octet 23 alone. -/
theorem flagPhasesReadOctet23 : Obligations.FlagPhasesReadOctet23 := by
  intro s t n frame h hl
  exact ⟨flagPhase_eq h hl Config.fsMask fun t b => { t with failsafe := some b },
    flagPhase_eq h hl Config.flMask fun t b => { t with frameLost := some b },
    flagPhase_eq h hl Config.ch18Mask fun t b => { t with ch18 := some b },
    flagPhase_eq h hl Config.ch17Mask fun t b => { t with ch17 := some b }⟩

/-- Settles O30: the slots below NCH give the channels of the record, and EMIT closes the DECODE with it. -/
theorem emitDeliversTheRecord : Obligations.EmitDeliversTheRecord := by
  intro s t n frame fs fl c18 c17 h hslots hfs hfl h18 h17
  obtain ⟨cs, hcs⟩ := exists_allValues_slots hslots
  have hrecord : t.record n.val = some ⟨cs, fs, fl, c17, c18⟩ := by
    simp only [Txn.record, hcs, hfs, hfl, h18, h17]
  have hlen : cs.length = n.val := length_of_allValues_slots hcs
  exact ⟨_, _, execEmit_eq h hrecord, rfl, rfl, rfl, rfl, rfl, s.closeTxn_answer_sameOutside _,
    hlen, fun i hi hin => getElem?_of_allValues_slots hcs hi hin, rfl, rfl, rfl, rfl,
    fun h0 => List.eq_nil_of_length_eq_zero (hlen.trans h0)⟩

end Sys2Proof.Machine
end


section
/-! The host's FrameReader (44_host_frame_reader.md) above a READY instance: the steps of the two agents run where their
conditions hold, and the runs of R186 put together from them. -/

namespace Sys2Proof.Machine

open Sys2Proof

/-! ### Runs -/

/-- Some number of steps, none of them stopped, leads from `s` to `t`. -/
abbrev Reaches : State → State → Prop := Relation.ReflTransGen fun s t => step s = .next t

theorem Reaches.refl {s : State} : Reaches s s := Relation.ReflTransGen.refl

/-- What steps reach is what a run of the machine ends in. -/
theorem Reaches.exists_run {s t : State} (h : Reaches s t) : ∃ m, Host.Core.run Sys2Proof.core m s = .next t := by
  induction h using Relation.ReflTransGen.head_induction_on with
  | refl => exact ⟨0, rfl⟩
  | @head s _ hstep _ ih =>
    obtain ⟨m, hm⟩ := ih
    have hcore : Sys2Proof.core.step s = .next _ := hstep
    refine ⟨m + 1, ?_⟩
    simp only [Host.Core.run, hcore]
    exact hm

section Steps

variable {s : State} {n : Fin 17} {frame : List Byte} {rest : List Input}

/-! ### One step -/

/-- The reader's own move comes first (44_host_frame_reader.md R184). -/
theorem step_of_readerMove {r : Reader} (h : readerMove s.reader s.result = some r) :
    step s = .next { s.taken s.inbox with reader := r } := by
  rw [step, h]

/-- Where neither the reader nor a DECODE is in front of it, the next input is taken. -/
theorem step_of_input (hr : readerMove s.reader s.result = none) (ht : s.txn = none) : step s = takeInput s := by
  rw [step, hr, ht]

/-- An event that answers a call of the reader moves it, and what it presents stands in front. -/
theorem step_of_event {e : HostEvent} {r : Reader} {presented : List Input}
    (hr : readerMove s.reader s.result = none) (ht : s.txn = none) (hi : s.inbox = .event e :: rest)
    (he : readerEvent s.params e s.reader = some (r, presented)) :
    step s = .next { s.taken rest with reader := r, inbox := presented ++ rest } := by
  rw [step_of_input hr ht, takeInput, hi]
  simp only [takeEvent, State.taken_params, State.taken_reader, State.taken_inbox, he]

/-- A run goes on with the reader's own move. -/
theorem Reaches.move {u : State} {r : Reader} (h : Reaches s u) (hr : readerMove u.reader u.result = some r) :
    Reaches s { u.taken u.inbox with reader := r } := h.tail (step_of_readerMove hr)

/-- A run goes on with an event that answers a call of the reader. -/
theorem Reaches.event {u : State} {e : HostEvent} {r : Reader} {presented : List Input} (h : Reaches s u)
    (hr : readerMove u.reader u.result = none) (ht : u.txn = none) (hi : u.inbox = .event e :: rest)
    (he : readerEvent u.params e u.reader = some (r, presented)) :
    Reaches s { u.taken rest with reader := r, inbox := presented ++ rest } := h.tail (step_of_event hr ht hi he)

theorem State.Ready.taken (h : s.Ready n) (rest : List Input) : (s.taken rest).Ready n := ⟨h.cfg, h.nch, h.txn⟩

/-- A frame that can be presented is decoded in one step in the atomic form (40_commands.md R103, R104). -/
theorem State.Ready.step_decode (h : s.Ready n) (hform : s.params.form = .transaction)
    (hlen : frame.length ≤ s.params.lenMax) (hr : readerMove s.reader s.result = none)
    (hi : s.inbox = decodeInput frame :: rest) :
    step s = .next ((s.taken rest).closeTxn.answer (decodeResult n.val frame)) := by
  have hports : decodePorts s.params { cmd := 1, cfgN := none, frame := frame } = .instr (.decode frame) := by
    simp [decodePorts, hlen]
  have hrun : runInstr (.decode frame) (s.taken rest) = exec (.decode frame) (s.taken rest) := by
    simp only [runInstr, State.taken_params, hform]
  rw [step_of_input hr h.txn, takeInput, hi, ← exec_decode_eq (h.taken rest), ← hrun]
  simp only [decodeInput, runCommand, State.taken_params, hports]

/-! ### The reader's own moves -/

/-- The inner loop reads while `enabled` (44_host_frame_reader.md R173). -/
theorem readerMove_innerTop {r : Reader} (a : Option Result) (henabled : r.enabled = true) :
    readerMove (r.goto .innerTop) a = some ((r.emit (.read 25)).goto .reading) := if_pos henabled

/-- An open session that ends with `enabled` and RETRY set is closed, and one backoff sleep follows
(44_host_frame_reader.md R172, R183). -/
theorem readerMove_closing {r : Reader} (a : Option Result) (hopen : r.sessionOpen = true) (henabled : r.enabled = true)
    (hretry : r.retry = true) : readerMove (r.goto .closing) a =
      some ((({ r with sessionOpen := false }.emit .closed).emit (.slept 1)).goto .sleeping) := by
  simp [readerMove, Reader.endSession, Reader.emit, Reader.goto, hopen, henabled, hretry]

/-- With `enabled` and RETRY set the outer loop opens a session, the first or a later one (44_host_frame_reader.md
R172). -/
theorem readerMove_outerTop {r : Reader} (first : Bool) (a : Option Result) (henabled : r.enabled = true)
    (hretry : r.retry = true) : readerMove (r.goto (.outerTop first)) a =
      some ((r.emit (.opened r.openParams)).goto .opening) := by
  simp [readerMove, Reader.emit, Reader.goto, Reader.openParams, henabled, hretry]

/-! ### The reader waits for a READ -/

/-- The reader has issued a READ above a READY instance of the atomic form, on which a frame of 25 octets can be
presented, and `enabled` is set: where the scenarios of 44_host_frame_reader.md R186 begin. -/
structure State.Reading (s : State) (n : Fin 17) : Prop where
  ready   : s.Ready n
  form    : s.params.form = .transaction
  lenMax  : 25 ≤ s.params.lenMax
  phase   : s.reader.phase = .reading
  enabled : s.reader.enabled = true

/-- While a READ is out the reader has no move of its own. -/
theorem State.Reading.readerMove_eq (h : s.Reading n) : readerMove s.reader s.result = none := by
  simp only [readerMove, h.phase]

/-- When READ returns, the reader does what `Reader.onRead` says. -/
theorem State.Reading.reaches_read {o : ReadOutcome} {r : Reader} {presented : List Input} (h : s.Reading n)
    (hi : s.inbox = .event (.readReturned o) :: rest) (ho : s.reader.onRead o = some (r, presented)) :
    Reaches s { s.taken rest with reader := r, inbox := presented ++ rest } := by
  refine Reaches.refl.event h.readerMove_eq h.ready.txn hi ?_
  simp only [readerEvent, h.phase, ho]

/-- An empty read is a warning and the next READ, in the same session (44_host_frame_reader.md R174). -/
theorem State.Reading.reaches_after_emptyRead (h : s.Reading n)
    (hi : s.inbox = .event (.readReturned (.octets [])) :: rest) :
    ∃ u, Reaches s u ∧ u.Reading n ∧ u.inbox = rest ∧ u.reader = { s.reader with
      effects := s.reader.effects ++ [.logWarning s.reader.address s.reader.timeout, .read 25] } := by
  have hmove := readerMove_innerTop none (r := s.reader.emit (.logWarning s.reader.address s.reader.timeout)) h.enabled
  refine ⟨_, (h.reaches_read hi rfl).move hmove, ?_, rfl, ?_⟩
  · exact ⟨⟨h.ready.cfg, h.ready.nch, h.ready.txn⟩, h.form, h.lenMax, rfl, h.enabled⟩
  · simp [Reader.emit, Reader.goto, ← h.phase]

/-- Empty reads, by induction on their number: each one a warning and the next READ. -/
theorem State.Reading.reaches_after_emptyReads (h : s.Reading n) (k : Nat)
    (hi : s.inbox = List.replicate k (.event (.readReturned (.octets []))) ++ rest) :
    ∃ u, Reaches s u ∧ u.Reading n ∧ u.inbox = rest ∧ u.reader = { s.reader with
      effects := s.reader.effects ++
        (List.replicate k [Effect.logWarning s.reader.address s.reader.timeout, Effect.read 25]).flatten } := by
  induction k generalizing s with
  | zero => exact ⟨s, .refl, h, hi, by simp⟩
  | succ k ih =>
    obtain ⟨u, hsu, hu, hiu, hru⟩ := h.reaches_after_emptyRead hi
    obtain ⟨v, huv, hv, hiv, hrv⟩ := ih hu hiu
    refine ⟨v, hsu.trans huv, hv, hiv, ?_⟩
    rw [hrv, hru, List.replicate_succ, List.flatten_cons, List.append_assoc]

/-- A read of 25 octets comes to the answer of their DECODE, with the reader waiting for it (44_host_frame_reader.md
R175). -/
theorem State.Reading.reaches_answer (h : s.Reading n) (hl : frame.length = 25)
    (hi : s.inbox = .event (.readReturned (.octets frame)) :: rest) :
    ∃ u, Reaches s u ∧ u.reader = s.reader.goto .decoding ∧ u.result = some (decodeResult n.val frame) ∧
      u.txn = none ∧ u.inbox = rest := by
  have hread : s.reader.onRead (.octets frame) = some (s.reader.goto .decoding, [decodeInput frame]) := by
    simp [Reader.onRead, hl, Config.frameLen]
  have hready : State.Ready
      { s.taken rest with reader := s.reader.goto .decoding, inbox := decodeInput frame :: rest } n :=
    ⟨h.ready.cfg, h.ready.nch, h.ready.txn⟩
  have hdecode := hready.step_decode h.form (hl ▸ h.lenMax) rfl rfl
  exact ⟨_, (h.reaches_read hi hread).tail hdecode, rfl, rfl, rfl, rfl⟩

/-- A valid frame is handed to the sink (44_host_frame_reader.md R177). -/
theorem State.Reading.reaches_dispatching (h : s.Reading n) (hv : ValidFrame frame)
    (hi : s.inbox = .event (.readReturned (.octets frame)) :: rest) :
    ∃ t, Reaches s t ∧ t.reader = (s.reader.emit (.dispatched (decodedFrame n.val frame))).goto .dispatching := by
  obtain ⟨hl, hh, he⟩ := (validFrame_iff frame).mp hv
  obtain ⟨u, hsu, hreader, hresult, -, -⟩ := h.reaches_answer hl hi
  have hdispatch : readerMove u.reader u.result =
      some ((s.reader.emit (.dispatched (decodedFrame n.val frame))).goto .dispatching) := by
    rw [hreader, hresult, decodeResult_of_valid _ hl hh he]
    rfl
  exact ⟨_, hsu.move hdispatch, rfl⟩

/-! ### The reader ends a session and opens the next -/

/-- A DecodeError is logged, the session closed and one backoff slept; once that has ended the next session is opened,
and no frame is dispatched on the way (44_host_frame_reader.md R172, R178, R183). -/
theorem reaches_opening_of_decodeError {r : Reader} {e : BlockError} (hreader : s.reader = r.goto .decoding)
    (hresult : s.result = some (.err e)) (ht : s.txn = none) (hi : s.inbox = .event .sleepEnded :: rest)
    (henabled : r.enabled = true) (hretry : r.retry = true) (hopen : r.sessionOpen = true) :
    ∃ t, Reaches s t ∧ t.reader.phase = .opening ∧ t.reader.effects = r.effects ++
      [.logError (.decodeFailure e), .closed, .slept 1, .opened r.openParams] := by
  have hlog : readerMove s.reader s.result = some ((r.emit (.logError (.decodeFailure e))).goto .closing) := by
    rw [hreader, hresult]
    rfl
  have hclose := readerMove_closing none (r := r.emit (.logError (.decodeFailure e))) hopen henabled hretry
  have hslept := ((Reaches.refl.move hlog).move hclose).event (presented := []) rfl ht hi rfl
  exact ⟨_, hslept.move (readerMove_outerTop false none henabled hretry), rfl, by simp [Reader.openParams]⟩

end Steps

/-! ### The obligation of 44_host_frame_reader.md -/

/-- Settles O50: an induction over the empty reads, and then the one DECODE, whose closed form is the record of a valid
frame or the header error that ends the session. -/
theorem readerScenarios : Obligations.ReaderScenarios := by
  intro s n frame hready hform hlen hphase henabled
  have h : s.Reading n := ⟨hready, hform, hlen, hphase, henabled⟩
  refine ⟨fun k hv hi => ?_, fun hretry hopen hl hh hi => ?_⟩
  · obtain ⟨u, hsu, hu, hiu, hru⟩ := h.reaches_after_emptyReads k hi
    obtain ⟨t, hut, hrt⟩ := hu.reaches_dispatching hv hiu
    obtain ⟨m, hm⟩ := Reaches.exists_run (hsu.trans hut)
    exact ⟨m, t, hm, by rw [hrt]; rfl, by rw [hrt, hru]; rfl, by rw [hrt, hru]; rfl⟩
  · obtain ⟨u, hsu, hreader, hresult, htxn, hinbox⟩ := h.reaches_answer hl hi
    rw [decodeResult_of_wrongHeader _ hl hh] at hresult
    obtain ⟨t, hut, hopening, heffects⟩ :=
      reaches_opening_of_decodeError hreader hresult htxn hinbox henabled hretry hopen
    obtain ⟨m, hm⟩ := Reaches.exists_run (hsu.trans hut)
    exact ⟨m, t, hm, hopening, heffects⟩

end Sys2Proof.Machine
end


section
/-! Taking an error, 60_exceptions.md: which error an invalid frame has, and what the result ports show beside an error
record. -/

namespace Sys2Proof.Machine

open Sys2Proof

/-- The closed form of DECODE answers a frame that is not valid with the error of that frame: the first check it fails
(60_exceptions.md R201 to R203, R207). -/
theorem exists_frameError_of_not_validFrame {frame : List Byte} (n : Nat) (hv : ¬ ValidFrame frame) :
    ∃ e, FrameError frame e ∧ decodeResult n frame = .err e := by
  by_cases hl : frame.length = 25
  case neg => exact ⟨_, .inl ⟨hl, rfl⟩, decodeResult_of_wrongLength n hl⟩
  by_cases hh : octetAt frame 0 = 0x0F
  case neg => exact ⟨_, .inr (.inl ⟨hl, hh, rfl⟩), decodeResult_of_wrongHeader n hl hh⟩
  have he : octetAt frame 24 ≠ 0x00 := fun he => hv ((validFrame_iff frame).mpr ⟨hl, hh, he⟩)
  exact ⟨_, .inr (.inr ⟨hl, hh, he, rfl⟩), decodeResult_of_wrongEndByte n hl hh he⟩

/-! ### The result ports beside an error record -/

theorem State.resError_of_err {s : State} {e : BlockError} (h : s.result = some (.err e)) : s.resError = some e := by
  rw [State.resError, h]

theorem State.resFrame_of_err {s : State} {e : BlockError} (h : s.result = some (.err e)) : s.resFrame = none := by
  rw [State.resFrame, h]

theorem State.resCh_of_resFrame_none {s : State} (h : s.resFrame = none) : s.resCh = fun _ => none :=
  funext fun _ => by rw [State.resCh, h, Option.bind_none]

theorem State.resFlags_of_resFrame_none {s : State} (h : s.resFrame = none) :
    s.resFailsafe = none ∧ s.resFrameLost = none ∧ s.resCh18 = none ∧ s.resCh17 = none := by
  simp [State.resFailsafe, State.resFrameLost, State.resCh18, State.resCh17, h]

/-! ### The obligation of 60_exceptions.md -/

/-- Settles O11: the closed form of DECODE is the error of the frame, beside which the ports show no record, and the
DECODE has closed its transaction and changed nothing else. -/
theorem decodeErrorTakesNothingElse : Obligations.DecodeErrorTakesNothingElse := by
  intro frame n s h hv
  obtain ⟨e, herror, hanswer⟩ := exists_frameError_of_not_validFrame n.val hv
  have hrun : exec (.decode frame) s = .next (s.closeTxn.answer (.err e)) := hanswer ▸ exec_decode_eq h frame
  have hresult : (s.closeTxn.answer (.err e)).result = some (.err e) := rfl
  have hframe := State.resFrame_of_err hresult
  obtain ⟨hfs, hfl, h18, h17⟩ := State.resFlags_of_resFrame_none hframe
  exact ⟨_, e, hrun, herror, hresult, State.resError_of_err hresult, hframe, State.resCh_of_resFrame_none hframe,
    hfs, hfl, h18, h17, rfl, rfl, rfl, rfl, s.closeTxn_answer_sameOutside _⟩

end Sys2Proof.Machine
end


section
/-! The bits of a frame, 30_encoding.md: the fields as bits of its integer, the lanes of a record as one word, and PACK
(30_encoding.md R92) as the frame a record came from. -/

namespace Sys2Proof.Machine

open Sys2Proof

/-! ### Fields as bits of the frame's integer -/

/-- Channel `i` is the eleven bits of `F` from `8 + 11*i` on (30_encoding.md R73). -/
theorem chanOfInt_toNat (F i : Nat) : (chanOfInt F i).toNat = (F >>> (8 + 11 * i)) % 2 ^ 11 := by
  rw [chanOfInt, BitVec.toNat_ofNat, Config.chMask, show 0x7FF = 2 ^ 11 - 1 from rfl, Nat.and_two_pow_sub_one_eq_mod,
    Nat.mod_mod, Config.chBits]

theorem getLsbD_chanOfInt (F i : Nat) {b : Nat} (hb : b < 11) :
    (chanOfInt F i).getLsbD b = F.testBit (8 + 11 * i + b) := by
  rw [← BitVec.testBit_toNat, chanOfInt_toNat, Nat.testBit_mod_two_pow, Nat.testBit_shiftRight, decide_eq_true hb,
    Bool.true_and]

/-- Integers that agree on the bits of lane `i` have the same channel `i`. -/
theorem chanOfInt_congr {F G i : Nat} (h : ∀ b < 11, F.testBit (8 + 11 * i + b) = G.testBit (8 + 11 * i + b)) :
    chanOfInt F i = chanOfInt G i :=
  BitVec.eq_of_getLsbD_eq fun b hb => by rw [getLsbD_chanOfInt F i hb, getLsbD_chanOfInt G i hb, h b hb]

/-- Bit `b` of octet `j` is bit `8*j + b` of the frame's integer (00_scope.md R13). -/
theorem getLsbD_octetAt (frame : List Byte) (j : Nat) {b : Nat} (hb : b < 8) :
    (octetAt frame j).getLsbD b = (frameInt frame).testBit (8 * j + b) := by
  rw [← BitVec.testBit_toNat, octetAt_toNat, show 256 = 2 ^ 8 from rfl, ← Nat.pow_mul, Nat.testBit_mod_two_pow,
    Nat.testBit_div_two_pow, decide_eq_true hb, Bool.true_and, Nat.add_comm b]

/-- A mask of one bit picks out that bit (30_encoding.md R75). -/
theorem flagOf_twoPow (k : Nat) (hk : k < 8) (octet : Byte) : flagOf (BitVec.twoPow 8 k) octet = octet.getLsbD k := by
  have hne : BitVec.twoPow 8 k ≠ 0#8 := fun h => by simpa [hk] using congrArg (·.getLsbD k) h
  rw [flagOf, BitVec.and_twoPow]
  cases octet.getLsbD k
  · rfl
  · exact bne_iff_ne.mpr hne

/-- The flags of the record are bits 188 to 191 of the frame's integer (30_encoding.md R72). -/
theorem decodedFrame_failsafe (n : Nat) (frame : List Byte) :
    (decodedFrame n frame).failsafe = (frameInt frame).testBit 188 :=
  (flagOf_twoPow 4 (by decide) _).trans (getLsbD_octetAt frame 23 (by decide))

theorem decodedFrame_frameLost (n : Nat) (frame : List Byte) :
    (decodedFrame n frame).frameLost = (frameInt frame).testBit 189 :=
  (flagOf_twoPow 5 (by decide) _).trans (getLsbD_octetAt frame 23 (by decide))

theorem decodedFrame_ch18 (n : Nat) (frame : List Byte) :
    (decodedFrame n frame).ch18 = (frameInt frame).testBit 190 :=
  (flagOf_twoPow 6 (by decide) _).trans (getLsbD_octetAt frame 23 (by decide))

theorem decodedFrame_ch17 (n : Nat) (frame : List Byte) :
    (decodedFrame n frame).ch17 = (frameInt frame).testBit 191 :=
  (flagOf_twoPow 7 (by decide) _).trans (getLsbD_octetAt frame 23 (by decide))

theorem decodedFrame_channels_length (n : Nat) (frame : List Byte) : (decodedFrame n frame).channels.length = n := by
  simp [decodedFrame]

theorem decodedFrame_channels_getElem? (frame : List Byte) {n i : Nat} (hi : i < n) :
    (decodedFrame n frame).channels[i]? = some (chanOfInt (frameInt frame) i) := by
  simp [decodedFrame, hi]

/-- The record is made of the bits below `8 + 11*n` and the bits 188 to 191 alone. -/
theorem decodedFrame_congr {f g : List Byte} {n : Nat}
    (h : ∀ b, (b < 8 + 11 * n ∨ 188 ≤ b) → (frameInt f).testBit b = (frameInt g).testBit b) :
    decodedFrame n f = decodedFrame n g := by
  have hch : (decodedFrame n f).channels = (decodedFrame n g).channels :=
    List.map_congr_left fun i hi => chanOfInt_congr fun b hb => h _ (.inl (by have := List.mem_range.mp hi; omega))
  have hfs : (decodedFrame n f).failsafe = (decodedFrame n g).failsafe := by
    rw [decodedFrame_failsafe, decodedFrame_failsafe, h 188 (.inr (by decide))]
  have hfl : (decodedFrame n f).frameLost = (decodedFrame n g).frameLost := by
    rw [decodedFrame_frameLost, decodedFrame_frameLost, h 189 (.inr (by decide))]
  have h17 : (decodedFrame n f).ch17 = (decodedFrame n g).ch17 := by
    rw [decodedFrame_ch17, decodedFrame_ch17, h 191 (.inr (by decide))]
  have h18 : (decodedFrame n f).ch18 = (decodedFrame n g).ch18 := by
    rw [decodedFrame_ch18, decodedFrame_ch18, h 190 (.inr (by decide))]
  rw [DecodedFrame.mk.injEq]
  exact ⟨hch, hfs, hfl, h17, h18⟩

/-! ### The lanes as one word -/

theorem laneSum_eq (k : Nat) (cs : List Chan) : laneSum k cs = 2 ^ (8 + 11 * k) * laneWord cs := by
  induction cs generalizing k with
  | nil => rfl
  | cons c cs ih =>
    rw [laneSum, laneWord, ih, show 8 + 11 * (k + 1) = 8 + 11 * k + 11 by omega, Nat.pow_add 2 (8 + 11 * k)]
    ring

theorem laneWord_lt (cs : List Chan) : laneWord cs < 2 ^ (11 * cs.length) := by
  induction cs with
  | nil => simp [laneWord]
  | cons c cs ih =>
    have hc := c.isLt
    rw [laneWord, List.length_cons, Nat.mul_succ, Nat.pow_add, Nat.mul_comm (2 ^ (11 * cs.length))]
    omega

/-- The word of as many lanes determines them. -/
theorem laneWord_inj {cs ds : List Chan} (hl : cs.length = ds.length) (h : laneWord cs = laneWord ds) : cs = ds := by
  induction cs generalizing ds with
  | nil => exact (List.eq_nil_of_length_eq_zero hl.symm).symm
  | cons c cs ih =>
    cases ds with
    | nil => cases hl
    | cons d ds =>
      have hc := c.isLt
      have hd := d.isLt
      simp only [laneWord] at h
      rw [BitVec.eq_of_toNat_eq (show c.toNat = d.toNat by omega), ih (Nat.succ.inj hl) (by omega)]

theorem laneWord_concat (cs : List Chan) (c : Chan) :
    laneWord (cs ++ [c]) = laneWord cs + 2 ^ (11 * cs.length) * c.toNat := by
  induction cs with
  | nil => simp [laneWord]
  | cons d cs ih =>
    rw [List.cons_append, laneWord, ih, laneWord, List.length_cons, Nat.mul_succ, Nat.add_comm (11 * _), Nat.pow_add]
    ring

/-- The channels of a record, as one word, are the bits of `F` from bit 8 on (30_encoding.md R77). -/
theorem laneWord_channels (n : Nat) (frame : List Byte) :
    laneWord (decodedFrame n frame).channels = frameInt frame / 2 ^ 8 % 2 ^ (11 * n) := by
  induction n with
  | zero => simp [decodedFrame, laneWord, Nat.mod_one]
  | succ n ih =>
    have hch : (decodedFrame (n + 1) frame).channels =
        (decodedFrame n frame).channels ++ [chanOfInt (frameInt frame) n] := by
      simp [decodedFrame, List.range_succ]
    rw [hch, laneWord_concat, ih, decodedFrame_channels_length, chanOfInt_toNat, Nat.shiftRight_eq_div_pow,
      Nat.pow_add 2 8, ← Nat.div_div_eq_div_mul, Nat.mul_succ, Nat.pow_add 2 (11 * n), Nat.mod_mul]

/-- The four flags of the frame's integer are all of it above bit 187, where the end octet is 0. -/
theorem flags_toNat {F : Nat} (hF : F < 2 ^ 192) : F / 2 ^ 188 = (F.testBit 188).toNat + 2 * (F.testBit 189).toNat +
    4 * (F.testBit 190).toNat + 8 * (F.testBit 191).toNat := by
  rw [Nat.toNat_testBit, Nat.toNat_testBit, Nat.toNat_testBit, Nat.toNat_testBit]
  omega

/-! ### Octets of an integer -/

theorem octetsOf_length (k w : Nat) : (octetsOf k w).length = k := by
  induction k generalizing w with
  | zero => rfl
  | succ k ih => rw [octetsOf, List.length_cons, ih]

theorem frameInt_octetsOf (k w : Nat) : frameInt (octetsOf k w) = w % 256 ^ k := by
  induction k generalizing w with
  | zero => rw [octetsOf, frameInt_nil, Nat.pow_zero, Nat.mod_one]
  | succ k ih =>
    rw [octetsOf, frameInt_cons, ih, BitVec.toNat_ofNat, pow_succ' 256 k, Nat.mod_mul]

/-- The integer of as many octets determines them. -/
theorem frameInt_inj {bs cs : List Byte} (hl : bs.length = cs.length) (h : frameInt bs = frameInt cs) : bs = cs := by
  induction bs generalizing cs with
  | nil => exact (List.eq_nil_of_length_eq_zero hl.symm).symm
  | cons b bs ih =>
    cases cs with
    | nil => cases hl
    | cons c cs =>
      have hb := b.isLt
      have hc := c.isLt
      simp only [frameInt_cons] at h
      rw [BitVec.eq_of_toNat_eq (show b.toNat = c.toNat by omega), ih (Nat.succ.inj hl) (by omega)]

/-- A new octet at offset `j` takes the place of the old one in the frame's integer. -/
theorem frameInt_set {bs : List Byte} {j : Nat} (hj : j < bs.length) (b : Byte) :
    frameInt (bs.set j b) + 256 ^ j * (octetAt bs j).toNat = frameInt bs + 256 ^ j * b.toNat := by
  induction bs generalizing j with
  | nil => cases hj
  | cons c bs ih =>
    cases j with
    | zero =>
      rw [List.set_cons_zero, frameInt_cons, frameInt_cons, show octetAt (c :: bs) 0 = c from rfl]
      omega
    | succ j =>
      have h := ih (Nat.lt_of_succ_lt_succ hj)
      rw [List.set_cons_succ, frameInt_cons, frameInt_cons, show octetAt (c :: bs) (j + 1) = octetAt bs j from rfl,
        Nat.pow_succ, Nat.mul_comm (256 ^ j), Nat.mul_assoc, Nat.mul_assoc]
      omega

/-- The mask of the unused nibble clears the low four bits. -/
theorem and_F0_toNat (b : Byte) : (b &&& 0xF0).toNat = b.toNat / 16 * 16 := by
  have hb := b.isLt
  have hlow : b.toNat &&& 0xF = b.toNat % 2 ^ 4 := Nat.and_two_pow_sub_one_eq_mod b.toNat 4
  rw [BitVec.toNat_and, ← Nat.div_add_mod (b.toNat &&& _) (2 ^ 4), Nat.and_div_two_pow, Nat.and_mod_two_pow]
  change 2 ^ 4 * (b.toNat / 2 ^ 4 &&& 2 ^ 4 - 1) + (b.toNat % 2 ^ 4 &&& 0) = _
  rw [Nat.and_two_pow_sub_one_eq_mod, Nat.and_zero]
  omega

/-- The integer of a frame with the unused nibble cleared (30_encoding.md R93). -/
theorem frameInt_clearUnused {frame : List Byte} (hl : frame.length = 25) :
    frameInt (clearUnused frame) + frameInt frame / 2 ^ 184 % 16 * 2 ^ 184 = frameInt frame := by
  have hset := frameInt_set (bs := frame) (j := 23) (by omega) (octetAt frame 23 &&& 0xF0)
  have hoct := octetAt_toNat frame 23
  rw [and_F0_toNat, hoct] at hset
  change frameInt (frame.set 23 (octetAt frame 23 &&& 0xF0)) + _ = _
  omega

/-! ### PACK -/

/-- PACK's integer by its fields: the header, the word of the lanes, the flags (30_encoding.md R92). -/
theorem packInt_eq (c : Vector Chan 16) (fs fl c18 c17 : Bool) : packInt c fs fl c18 c17 =
    15 + 2 ^ 8 * laneWord c.toList + 2 ^ 188 * fs.toNat + 2 ^ 189 * fl.toNat + 2 ^ 190 * c18.toNat +
      2 ^ 191 * c17.toNat := by
  rw [packInt, laneSum_eq]
  omega

theorem pack_length (c : Vector Chan 16) (fs fl c18 c17 : Bool) : (pack c fs fl c18 c17).length = 25 :=
  octetsOf_length 25 _

/-- What the fields of PACK's integer hold (30_encoding.md R92). -/
structure PackFields (F : Nat) (c : Vector Chan 16) (fs fl c18 c17 : Bool) : Prop where
  header    : F % 256 = 15
  lanes     : F / 2 ^ 8 % 2 ^ 176 = laneWord c.toList
  failsafe  : F.testBit 188 = fs
  frameLost : F.testBit 189 = fl
  ch18      : F.testBit 190 = c18
  ch17      : F.testBit 191 = c17
  bound     : F < 2 ^ 192

theorem packFields_packInt (c : Vector Chan 16) (fs fl c18 c17 : Bool) :
    PackFields (packInt c fs fl c18 c17) c fs fl c18 c17 := by
  have hW : laneWord c.toList < 2 ^ 176 := by simpa using laneWord_lt c.toList
  have hfs := fs.toNat_lt
  have hfl := fl.toNat_lt
  have h18 := c18.toNat_lt
  have h17 := c17.toNat_lt
  rw [packInt_eq]
  constructor
  case header => omega
  case lanes => omega
  case bound => omega
  all_goals
    refine Function.LeftInverse.injective Bool.ofNat_toNat ?_
    rw [Nat.toNat_testBit]
    omega

theorem packFields_pack (c : Vector Chan 16) (fs fl c18 c17 : Bool) :
    PackFields (frameInt (pack c fs fl c18 c17)) c fs fl c18 c17 := by
  have h := packFields_packInt c fs fl c18 c17
  rwa [pack, frameInt_octetsOf, Nat.mod_eq_of_lt (by have := h.bound; omega)]

/-- A PACK is a valid frame (30_encoding.md R92). -/
theorem validFrame_pack (c : Vector Chan 16) (fs fl c18 c17 : Bool) : ValidFrame (pack c fs fl c18 c17) := by
  have h := packFields_pack c fs fl c18 c17
  have hbound := h.bound
  refine ⟨pack_length c fs fl c18 c17, ?_⟩
  rw [and_validMask, h.header, Nat.div_eq_of_lt (show _ < 256 ^ 24 from hbound)]
  rfl

/-- The record of a PACK has the values packed (30_encoding.md R93). -/
theorem decodedFrame_pack (c : Vector Chan 16) (fs fl c18 c17 : Bool) : decodedFrame 16 (pack c fs fl c18 c17) =
    { channels := c.toList, failsafe := fs, frameLost := fl, ch17 := c17, ch18 := c18 } := by
  have h := packFields_pack c fs fl c18 c17
  have hch : (decodedFrame 16 (pack c fs fl c18 c17)).channels = c.toList := by
    refine laneWord_inj ?_ ((laneWord_channels 16 _).trans h.lanes)
    rw [decodedFrame_channels_length, Vector.length_toList]
  rw [DecodedFrame.mk.injEq]
  exact ⟨hch, (decodedFrame_failsafe 16 _).trans h.failsafe, (decodedFrame_frameLost 16 _).trans h.frameLost,
    (decodedFrame_ch17 16 _).trans h.ch17, (decodedFrame_ch18 16 _).trans h.ch18⟩

/-- A valid frame with its unused nibble cleared is the PACK of its record (30_encoding.md R93). -/
theorem pack_decodedFrame {frame : List Byte} (hv : ValidFrame frame)
    (h : (decodedFrame 16 frame).channels.toArray.size = 16) :
    pack ⟨(decodedFrame 16 frame).channels.toArray, h⟩ (decodedFrame 16 frame).failsafe (decodedFrame 16 frame).frameLost
      (decodedFrame 16 frame).ch18 (decodedFrame 16 frame).ch17 = clearUnused frame := by
  obtain ⟨hl, hh, he⟩ := (validFrame_iff frame).mp hv
  have hbound := frameInt_lt_of_endByte hl he
  have hheader := frameInt_mod_of_header hh
  have hclear := frameInt_clearUnused hl
  have hlanes := laneWord_channels 16 frame
  have hflags := flags_toNat hbound
  refine frameInt_inj (by rw [pack_length, clearUnused, List.length_set, hl]) ?_
  rw [pack, frameInt_octetsOf, packInt_eq, Vector.toList_mk, List.toList_toArray, hlanes, decodedFrame_failsafe,
    decodedFrame_frameLost, decodedFrame_ch18, decodedFrame_ch17, Nat.mod_eq_of_lt (by omega)]
  omega

/-! ### DECODE of a valid frame -/

/-- DECODE of a valid frame where READY answers its record (40_commands.md R104). -/
theorem exec_decode_valid {s : State} {n : Fin 17} {frame : List Byte} (h : s.Ready n) (hv : ValidFrame frame) :
    exec (.decode frame) s = .next (s.closeTxn.answer (.ok (decodedFrame n.val frame))) := by
  obtain ⟨hl, hh, he⟩ := (validFrame_iff frame).mp hv
  rw [exec_decode_eq h, decodeResult_of_valid n.val hl hh he]

/-- Settles O17: the fields of PACK's integer are those it was made of, and with sixteen channels a valid frame has no
bit but those fields and the unused nibble. -/
theorem packAndDecodeAreInverse : Obligations.PackAndDecodeAreInverse := by
  refine ⟨fun c fs fl c18 c17 s h => ⟨_, exec_decode_valid h (validFrame_pack c fs fl c18 c17), ?_⟩,
    fun frame s h hv => ?_⟩
  · exact congrArg (fun d => some (Result.ok d)) (decodedFrame_pack c fs fl c18 c17)
  · have hsize : (decodedFrame 16 frame).channels.toArray.size = 16 := by simp [decodedFrame]
    exact ⟨_, _, hsize, exec_decode_valid h hv, rfl, pack_decodedFrame hv hsize⟩

/-! ### What the bits of a frame do -/

/-- Settles O13: channels and flags are bits of the frame's integer. -/
theorem fieldsAreSlicesOfTheFrame : Obligations.FieldsAreSlicesOfTheFrame := by
  intro frame n s h hv
  refine ⟨_, _, exec_decode_valid h hv, rfl, decodedFrame_channels_length _ _, fun i hi => ?_,
    decodedFrame_failsafe _ _, decodedFrame_frameLost _ _, decodedFrame_ch18 _ _, decodedFrame_ch17 _ _⟩
  exact ⟨_, decodedFrame_channels_getElem? frame hi, fun b hb => getLsbD_chanOfInt _ i hb⟩

/-- The closed form of DECODE on 25 octets reads the bits below `8 + 11*n` and from 188 on alone. -/
theorem decodeResult_congr {f g : List Byte} {n : Nat} (hf : f.length = 25) (hg : g.length = 25)
    (h : ∀ b, (b < 8 + 11 * n ∨ 188 ≤ b) → (frameInt f).testBit b = (frameInt g).testBit b) :
    decodeResult n f = decodeResult n g := by
  have hoctet : ∀ j, j = 0 ∨ j = 24 → octetAt f j = octetAt g j := fun j hj =>
    BitVec.eq_of_getLsbD_eq fun b hb => by
      rw [getLsbD_octetAt f j hb, getLsbD_octetAt g j hb, h _ (by omega)]
  rw [decodeResult, decodeResult, hf, hg, hoctet 0 (.inl rfl), hoctet 24 (.inr rfl), decodedFrame_congr h]

/-- Settles O14: the closed form of DECODE is the same for both frames. -/
theorem ignoredBitsDoNotMatter : Obligations.IgnoredBitsDoNotMatter := by
  intro f g n s h hf hg hbits
  exact ⟨_, _, exec_decode_eq h f, exec_decode_eq h g, congrArg some (decodeResult_congr hf hg hbits)⟩

/-- Settles O15: each flag is a bit of the frame's integer, whatever the channel count, and PACK gives a frame for every
combination. -/
theorem flagsAreIndependent : Obligations.FlagsAreIndependent := by
  refine ⟨fun f g n m s u hs hu hf hg => ?_, fun fs fl c18 c17 n s h => ?_⟩
  · refine ⟨_, _, _, _, exec_decode_valid hs hf, rfl, exec_decode_valid hu hg, rfl, ?_⟩
    simp only [decodedFrame_failsafe, decodedFrame_frameLost, decodedFrame_ch18, decodedFrame_ch17, imp_self, and_self]
  · have hfields := packFields_pack (Vector.replicate 16 0) fs fl c18 c17
    exact ⟨_, _, _, exec_decode_valid h (validFrame_pack (Vector.replicate 16 0) fs fl c18 c17), rfl,
      (decodedFrame_failsafe _ _).trans hfields.failsafe, (decodedFrame_frameLost _ _).trans hfields.frameLost,
      (decodedFrame_ch18 _ _).trans hfields.ch18, (decodedFrame_ch17 _ _).trans hfields.ch17⟩

/-- A value that has bit `b` set where another has it clear, and no other bit changed, is larger by `2^b`. -/
theorem toNat_eq_add_two_pow {v w : Chan} {b : Nat} (hb : b < 11) (hv : v.getLsbD b = false) (hw : w.getLsbD b = true)
    (hother : ∀ j < 11, j ≠ b → v.getLsbD j = w.getLsbD j) : w.toNat = v.toNat + 2 ^ b := by
  have hand : v &&& BitVec.twoPow 11 b = 0#11 := by rw [BitVec.and_twoPow, hv]; rfl
  have hor : w = v ||| BitVec.twoPow 11 b := by
    refine BitVec.eq_of_getLsbD_eq fun j hj => ?_
    rw [BitVec.getLsbD_or, BitVec.getLsbD_twoPow]
    by_cases hjb : j = b
    · simp [hjb, hw, hb]
    · simp [hother j hj hjb, Ne.symm hjb]
  rw [hor, ← BitVec.add_eq_or_of_and_eq_zero _ _ hand, BitVec.toNat_add_of_and_eq_zero hand, BitVec.toNat_twoPow,
    Nat.mod_eq_of_lt (Nat.pow_lt_pow_right (by decide) hb)]

/-- Settles O16: a channel is its own eleven bits, and one more of them set adds its power of two. -/
theorem lanesAreIndependent : Obligations.LanesAreIndependent := by
  intro f g n s h hf hg
  refine ⟨_, _, _, _, exec_decode_valid h hf, rfl, exec_decode_valid h hg, rfl, fun i hi => ?_⟩
  refine ⟨_, _, decodedFrame_channels_getElem? f hi, decodedFrame_channels_getElem? g hi, chanOfInt_congr,
    fun b hb hclear hset hother => toNat_eq_add_two_pow hb ?_ ?_ fun j hj hjb => ?_⟩
  · rw [getLsbD_chanOfInt _ _ hb, hclear]
  · rw [getLsbD_chanOfInt _ _ hb, hset]
  · rw [getLsbD_chanOfInt _ _ hj, getLsbD_chanOfInt _ _ hj, hother j hj hjb]

/-- Settles O18: the lanes of the record are bits 183 to 8 of `F`, and its flags bits 191 to 188. -/
theorem okWordIsTheFrameWithoutItsConstants : Obligations.OkWordIsTheFrameWithoutItsConstants := by
  intro frame s h hv
  obtain ⟨hl, -, he⟩ := (validFrame_iff frame).mp hv
  have hbound := frameInt_lt_of_endByte hl he
  have hflags := flags_toNat hbound
  refine ⟨_, _, exec_decode_valid h hv, rfl, ?_⟩
  rw [DecodedFrame.okWord, BitVec.toNat_ofNat, laneWord_channels, decodedFrame_failsafe, decodedFrame_frameLost,
    decodedFrame_ch18, decodedFrame_ch17, Nat.shiftRight_eq_div_pow, Nat.shiftRight_eq_div_pow]
  change (frameInt frame / 2 ^ 8 % 2 ^ 176 + _ + _ + _ + _) % _ = _
  omega

/-! ### MemRead -/

/-- A slice of whole octets of the frame's integer is the sum of those octets (20_memory.md R53, R62). -/
theorem frameInt_slice_eq_sum (frame : List Byte) (a n : Nat) : (frameInt frame >>> (8 * a)) % 2 ^ (8 * n) =
    ((List.range n).map fun k => (octetAt frame (a + k)).toNat * 2 ^ (8 * k)).sum := by
  induction n with
  | zero => simp [Nat.mod_one]
  | succ n ih =>
    rw [List.range_succ, List.map_append, List.sum_append, ← ih, List.map_singleton, List.sum_singleton, octetAt_toNat,
      Nat.shiftRight_eq_div_pow, Nat.mul_succ, Nat.pow_add 2 (8 * n), Nat.mod_mul, Nat.div_div_eq_div_mul, ← Nat.pow_add,
      show 256 = 2 ^ 8 from rfl, ← Nat.pow_mul, Nat.mul_add, Nat.mul_comm (2 ^ (8 * n))]

/-- Settles O19: MemRead is a slice of the frame's integer, which is the sum of its octets. -/
theorem frameReadsAreSlicesOfTheFrame : Obligations.FrameReadsAreSlicesOfTheFrame := by
  refine fun frame a n => ⟨fun h => ⟨?_, frameInt_slice_eq_sum frame a n⟩, Memory.readLE_ofOctets_none frame a n⟩
  rw [Memory.readLE_ofOctets_eq frame a n h, show 256 = 2 ^ 8 from rfl, ← Nat.pow_mul, ← Nat.pow_mul,
    Nat.shiftRight_eq_div_pow]

/-- The octets `a` to `a + m - 1`, shifted by `sh`, give channel `k` where they span its bits (30_encoding.md R74). -/
theorem chanOf_slice (F : Nat) {a m sh k : Nat} (hbits : 8 * a + sh = 8 + 11 * k) (hwide : sh + 11 ≤ 8 * m) :
    chanOf (F / 256 ^ a % 256 ^ m) sh = chanOfInt F k := by
  apply BitVec.eq_of_toNat_eq
  obtain ⟨c, hc⟩ := Nat.exists_eq_add_of_le hwide
  rw [chanOf, BitVec.toNat_ofNat, chanOfInt_toNat, ← hbits, Nat.shiftRight_eq_div_pow, Nat.shiftRight_eq_div_pow,
    show 256 = 2 ^ 8 from rfl, ← Nat.pow_mul, ← Nat.pow_mul, hc, Nat.add_assoc, Nat.pow_add 2 sh,
    Nat.mod_mul_right_div_self, Nat.div_div_eq_div_mul, ← Nat.pow_add, Nat.pow_add 2 11, Nat.mod_mul_right_mod]

theorem chanOf_toNat (m sh : Nat) : (chanOf m sh).toNat = (m >>> sh) &&& 0x7FF := by
  rw [chanOf, BitVec.toNat_ofNat, ← Nat.and_two_pow_sub_one_eq_mod]

/-- The octets of channel `i` lie in the frame and span its bits (30_encoding.md R74). -/
theorem chanOctets_span : ∀ i < 16, 8 * (1 + 11 * i / 8) + 11 * i % 8 = 8 + 11 * i ∧
    11 * i % 8 + 11 ≤ 8 * chanOctets i ∧ 1 + 11 * i / 8 + chanOctets i ≤ 25 := by decide

/-- Three octets are read for the channels 2, 5, 10 and 13 (20_memory.md R55). -/
theorem chanOctets_eq_three_iff : ∀ i < 16, chanOctets i = 3 ↔ i = 2 ∨ i = 5 ∨ i = 10 ∨ i = 13 := by decide

/-- Settles O20: the octets of a channel are those its bits lie in. -/
theorem channelsComeFromTwoOrThreeOctets : Obligations.ChannelsComeFromTwoOrThreeOctets := by
  intro frame i hl hi
  obtain ⟨hbits, hwide, hin⟩ := chanOctets_span i hi
  refine ⟨fun h => if_pos h, fun h => if_neg (by omega), chanOctets_eq_three_iff i hi, _,
    Memory.readLE_ofOctets_eq frame _ _ (hl ▸ hin), ?_⟩
  rw [← chanOf_toNat, chanOf_slice _ hbits hwide]

end Sys2Proof.Machine
end


section
/-! The two commands, 40_commands.md: everything a CONFIG and a DECODE can do, said once, and what they leave unchanged. -/

namespace Sys2Proof.Machine

open Sys2Proof

variable {s t : State} {n : Option Int} {frame : List Byte}

/-! ### CONFIG -/

/-- An operand in 0 to 16 is a channel count (40_commands.md R100). -/
theorem exists_countOf {v : Int} (h0 : 0 ≤ v) (h16 : v ≤ 16) : ∃ c : Fin 17, countOf v = some c ∧ (c.val : Int) = v := by
  have hlt : v.toNat < 17 := by omega
  exact ⟨⟨v.toNat, hlt⟩, by rw [countOf, if_pos h0, dif_pos hlt], Int.toNat_of_nonneg h0⟩

/-- An operand gives no channel count exactly where it is outside 0 to 16 (40_commands.md R100). -/
theorem countOf_eq_none_iff {v : Int} : countOf v = none ↔ v < 0 ∨ 16 < v := by
  constructor
  · intro h
    by_contra hv
    obtain ⟨c, hc, -⟩ := exists_countOf (v := v) (by omega) (by omega)
    rw [h] at hc
    cases hc
  · rintro (h | h)
    · exact if_neg (by omega)
    · rw [countOf, if_pos (by omega), dif_neg (by omega)]

theorem exec_config_accepts {c : Fin 17} (ht : s.txn = none) (hc : s.cfg = .unconfigured)
    (hn : countOf (configValue n) = some c) :
    exec (.config n) s = .next { s with cfg := .ready, nch := some c, result := some .accepted } := by
  change execConfig n s = _
  simp [execConfig, ht, hc, hn]

theorem exec_config_fails (ht : s.txn = none) (hc : s.cfg = .unconfigured) (hn : countOf (configValue n) = none) :
    exec (.config n) s = .next ({ s with cfg := .cfgFault }.raise (.configError 0 16 (configValue n))) := by
  change execConfig n s = _
  simp [execConfig, ht, hc, hn]

theorem exec_config_inProgress (n : Option Int) (ht : s.txn ≠ none) :
    exec (.config n) s = .refused .commandInProgress := by
  change execConfig n s = _
  rw [execConfig, if_pos (Option.isSome_iff_ne_none.mpr ht)]

/-- Unless UNCONFIGURED a CONFIG is refused (60_exceptions.md R212, 70_reset_and_hazards.md R236). -/
theorem exec_config_refused (n : Option Int) (hc : s.cfg ≠ .unconfigured) :
    exec (.config n) s = .refused (if s.txn.isSome then .commandInProgress else .configNotUnconfigured) := by
  change execConfig n s = _
  rw [execConfig, if_neg hc, apply_ite (Host.Outcome.refused (σ := State) (φ := Fault))]

/-- Everything a CONFIG can do (40_commands.md R100 to R102). -/
theorem exec_config_cases (n : Option Int) (s : State) :
    (∃ r, exec (.config n) s = .refused r ∧ (r = .commandInProgress ∨ r = .configNotUnconfigured)) ∨
    (s.txn = none ∧ s.cfg = .unconfigured ∧
      ((∃ c, countOf (configValue n) = some c ∧
          exec (.config n) s = .next { s with cfg := .ready, nch := some c, result := some .accepted }) ∨
        (countOf (configValue n) = none ∧
          exec (.config n) s = .next ({ s with cfg := .cfgFault }.raise (.configError 0 16 (configValue n)))))) := by
  by_cases hc : s.cfg = .unconfigured
  case neg => exact .inl ⟨_, exec_config_refused n hc, ite_eq_or_eq _ _ _⟩
  by_cases ht : s.txn = none
  case neg => exact .inl ⟨_, exec_config_inProgress n ht, .inl rfl⟩
  refine .inr ⟨ht, hc, ?_⟩
  cases hn : countOf (configValue n) with
  | some c => exact .inl ⟨c, rfl, exec_config_accepts ht hc hn⟩
  | none => exact .inr ⟨rfl, exec_config_fails ht hc hn⟩

/-- A CONFIG goes on only on an UNCONFIGURED instance with no command in progress, with one of its two answers. -/
theorem exec_config_next (h : exec (.config n) s = .next t) : s.txn = none ∧ s.cfg = .unconfigured ∧
    ((∃ c, t = { s with cfg := .ready, nch := some c, result := some .accepted }) ∨
      (countOf (configValue n) = none ∧
        t = { s with cfg := .cfgFault }.raise (.configError 0 16 (configValue n)))) := by
  rcases exec_config_cases n s with ⟨r, hr, -⟩ | ⟨ht, hc, ⟨c, -, hr⟩ | ⟨hn, hr⟩⟩
  · rw [hr] at h; cases h
  · rw [hr] at h; cases h; exact ⟨ht, hc, .inl ⟨c, rfl⟩⟩
  · rw [hr] at h; cases h; exact ⟨ht, hc, .inr ⟨hn, rfl⟩⟩

/-! ### DECODE -/

/-- Unless READY a DECODE does not open (40_commands.md R106, 70_reset_and_hazards.md R236). -/
theorem openTxn_refused (form : Form) (frame : List Byte) (h : ∀ n, ¬ s.Ready n) :
    openTxn form frame s = .refused (if s.txn.isSome then .commandInProgress else .decodeNotReady) := by
  cases ht : s.txn with
  | some t => simp [openTxn, ht]
  | none =>
    by_cases hc : s.cfg = .ready
    case neg => simp [openTxn, ht, hc]
    cases hn : s.nch with
    | some n => exact absurd ⟨hc, hn, ht⟩ (h n)
    | none => simp [openTxn, ht, hn]

/-- A command refused before its phases stays refused (60_exceptions.md R212). -/
theorem runPhases_refused (r : Refusal) (fs : List (State → Answer)) : runPhases (.refused r) fs = .refused r := by
  induction fs with
  | nil => rfl
  | cons f fs ih => rw [runPhases_cons, thenPhase_refused, ih]

/-- Unless READY a DECODE is refused, whatever its frame (60_exceptions.md R212). -/
theorem exec_decode_refused (frame : List Byte) (h : ∀ n, ¬ s.Ready n) :
    exec (.decode frame) s = .refused (if s.txn.isSome then .commandInProgress else .decodeNotReady) := by
  change execDecode frame s = _
  cases hn : s.nch with
  | none => rw [execDecode, hn, ← openTxn_refused .transaction frame h]
  | some n =>
    rw [execDecode, hn]
    dsimp only
    rw [openTxn_refused .transaction frame h, runPhases_refused]

/-- A DECODE goes on only where READY, with the closed form as its answer (40_commands.md R104). -/
theorem exec_decode_next (h : exec (.decode frame) s = .next t) :
    ∃ n, s.Ready n ∧ t = s.closeTxn.answer (decodeResult n.val frame) := by
  by_cases hr : ∃ n, s.Ready n
  case neg =>
    rw [exec_decode_refused frame (not_exists.mp hr)] at h
    cases h
  obtain ⟨n, hr⟩ := hr
  rw [exec_decode_eq hr frame] at h
  cases h
  exact ⟨n, hr, rfl⟩

/-- A command is refused while one is in progress (70_reset_and_hazards.md R236). -/
theorem exec_command_inProgress {i : Instr} (hi : isCommand i = true) (ht : s.txn ≠ none) :
    exec i s = .refused .commandInProgress := by
  cases i with
  | config n => exact exec_config_inProgress n ht
  | decode frame =>
    rw [exec_decode_refused frame fun n h => ht h.txn, if_pos (Option.isSome_iff_ne_none.mpr ht)]
  | _ => cases hi

/-! ### The obligations of 40_commands.md and 60_exceptions.md -/

/-- Settles O1: the two answers of CONFIG, and its refusal. -/
theorem configSetsCountOnceOrFails : Obligations.ConfigSetsCountOnceOrFails := by
  intro n s ht
  refine ⟨rfl, fun hc h0 h16 => ?_, fun hc hv => ?_, fun hc => ?_⟩
  · obtain ⟨c, hn, hv⟩ := exists_countOf h0 h16
    exact ⟨_, c, exec_config_accepts ht hc hn, hv, rfl, rfl, ht, fun _ => rfl, rfl, rfl, rfl⟩
  · exact ⟨_, exec_config_fails ht hc (countOf_eq_none_iff.mpr hv), rfl, rfl, rfl, ht, fun _ => rfl, rfl, rfl, rfl⟩
  · rw [exec_config_refused n hc, ht]
    rfl

/-- Settles O2: both commands are refused out of their status, and the reason is their own with none in progress. -/
theorem commandsRefusedOutOfTurn : Obligations.CommandsRefusedOutOfTurn := by
  refine fun s => ⟨fun frame hc => ⟨_, exec_decode_refused frame fun n h => hc h.cfg, fun ht => ?_⟩,
    fun n hc => ⟨_, exec_config_refused n hc, fun ht => ?_⟩⟩
  · rw [ht]; rfl
  · rw [ht]; rfl

/-- Settles O4: the phases of DECODE end in the closed form. -/
theorem decodeHasItsClosedForm : Obligations.DecodeHasItsClosedForm :=
  fun frame _ _ h => ⟨_, exec_decode_eq h frame, rfl⟩

/-- Settles O5: a DECODE that goes on closes its transaction and answers, and where none was in progress the frame buffer
was empty before as well. -/
theorem decodeChangesOnlyTheResult : Obligations.DecodeChangesOnlyTheResult := by
  intro frame s t hinv h
  obtain ⟨n, hr, rfl⟩ := exec_decode_next h
  refine ⟨rfl, rfl, hr.txn.symm, fun a => ?_, s.closeTxn_answer_sameOutside _⟩
  rw [hinv.idle hr.txn, State.answer_mem, State.closeTxn_mem]

/-- Settles O8: where READY the closed form names the length alone, and elsewhere the refusal names no frame. -/
theorem wrongLengthReadsNoOctet : Obligations.WrongLengthReadsNoOctet := by
  refine ⟨fun f g s hfg hl => ?_, fun frame n s h hl => ⟨_, exec_decode_eq h frame, ?_⟩⟩
  · by_cases hr : ∃ n, s.Ready n
    · obtain ⟨n, hr⟩ := hr
      rw [exec_decode_eq hr, exec_decode_eq hr, decodeResult_of_wrongLength n.val hl,
        decodeResult_of_wrongLength n.val (hfg ▸ hl), hfg]
    · rw [exec_decode_refused f (not_exists.mp hr), exec_decode_refused g (not_exists.mp hr)]
  · exact congrArg some (decodeResult_of_wrongLength n.val hl)

end Sys2Proof.Machine
end


section
/-! The phases of DECODE, 42_unpack.md and 43_flags.md: where each is refused, what it leaves unchanged, EXT and its loop,
and the sixteen fixed extractors by their octets. -/

namespace Sys2Proof.Machine

open Sys2Proof

variable {s u : State} {t : Txn} {n : Fin 17} {frame : List Byte} {i : Instr} {st : Stage}

/-! ### Where a phase is refused -/

theorem inTxn_none (k : Txn → Fin 17 → Answer) (h : s.txn = none) : inTxn s k = .refused .noTransaction := by
  rw [inTxn, h]

theorem atStage_none (st : Stage) (k : Txn → Fin 17 → Answer) (h : s.txn = none) :
    atStage st s k = .refused .noTransaction := inTxn_none _ h

theorem State.Decoding.atStage_outOfPlace {st' : Stage} (h : s.Decoding t n frame st) (hst : st ≠ st')
    (k : Txn → Fin 17 → Answer) : atStage st' s k = .refused .phaseOutOfPlace := by
  rw [atStage, inTxn_eq _ h.txn h.cfg h.nch, h.stage, if_neg hst]

/-- The stage a phase follows: the checks stand one after the other, every other phase after all three (41_validate.md
R123). -/
def stageOf : Instr → Stage
  | .chkLen => .opened
  | .chkHdr => .lenOk
  | .chkEnd => .hdrOk
  | _       => .checked

/-- Every phase asks for its stage first. -/
theorem exec_phase_eq_atStage (hi : isCommand i = false) (s : State) : ∃ k, exec i s = atStage (stageOf i) s k := by
  cases i with
  | config n => cases hi
  | decode f => cases hi
  | _ => exact ⟨_, rfl⟩

theorem stageOf_eq_checked (hi : i ∉ checkPhases) : stageOf i = .checked := by
  unfold stageOf
  split
  · exact absurd (by decide) hi
  · exact absurd (by decide) hi
  · exact absurd (by decide) hi
  · rfl

/-- A phase is refused where no DECODE is in progress (10_state.md R29). -/
theorem exec_phase_noTransaction (hi : isCommand i = false) (h : s.txn = none) : exec i s = .refused .noTransaction := by
  obtain ⟨k, hk⟩ := exec_phase_eq_atStage hi s
  rw [hk, atStage_none _ k h]

/-- A phase is refused before the checks it follows, and a check where it is repeated (41_validate.md R123). -/
theorem State.Decoding.exec_outOfPlace (h : s.Decoding t n frame st) (hi : isCommand i = false) (hst : st ≠ stageOf i) :
    exec i s = .refused .phaseOutOfPlace := by
  obtain ⟨k, hk⟩ := exec_phase_eq_atStage hi s
  rw [hk, h.atStage_outOfPlace hst]

/-- EXT runs NCH times (42_unpack.md R133). -/
theorem execExt_beyond {a : BitVec 192} {i : BitVec 5} (h : s.Decoding t n frame .checked) (ha : t.acc = some a)
    (hi : t.idx = some i) (hge : n.val ≤ i.toNat) : execExt s = .refused .phaseOutOfPlace := by
  rw [execExt, h.atStage_runs, ha, hi]
  exact if_neg (by omega)

theorem execExt_withoutValue (h : s.Decoding t n frame .checked) (hno : t.acc = none ∨ t.idx = none) :
    execExt s = .refused .operandWithoutValue := by
  rw [execExt, h.atStage_runs]
  split
  · rename_i a i ha hi
    rw [ha, hi] at hno
    rcases hno with hno | hno <;> cases hno
  · rfl

theorem execDropHdr_withoutValue (h : s.Decoding t n frame .checked) (hf : t.f = none) :
    execDropHdr s = .refused .operandWithoutValue := by
  rw [execDropHdr, h.atStage_runs, hf]

/-- A record comes from slots and flags that hold its values (43_flags.md R166). -/
theorem Txn.record_eq_some {m : Nat} {d : DecodedFrame} (h : t.record m = some d) :
    allValues (t.ch.toList.take m) = some d.channels ∧ t.failsafe = some d.failsafe ∧ t.frameLost = some d.frameLost ∧
      t.ch17 = some d.ch17 ∧ t.ch18 = some d.ch18 := by
  unfold Txn.record at h
  split at h
  · rename_i hch hfs hfl h17 h18
    cases h
    exact ⟨hch, hfs, hfl, h17, h18⟩
  · cases h

/-- There is no record while a slot below NCH or a flag holds no value (10_state.md R27). -/
theorem Txn.record_eq_none (hno : (∃ (k : Nat) (h : k < 16), k < n.val ∧ t.ch[k] = none) ∨ t.failsafe = none ∨
    t.frameLost = none ∨ t.ch18 = none ∨ t.ch17 = none) : t.record n.val = none := by
  cases hd : t.record n.val with
  | none => rfl
  | some d =>
    obtain ⟨hch, hfs, hfl, h17, h18⟩ := Txn.record_eq_some hd
    rcases hno with ⟨k, hk, hkn, hslot⟩ | hno | hno | hno | hno
    · have hlen := length_of_allValues_slots hch
      have hsome := getElem?_of_allValues_slots hch hk hkn
      rw [hslot, List.getElem?_eq_none_iff] at hsome
      omega
    · rw [hno] at hfs; cases hfs
    · rw [hno] at hfl; cases hfl
    · rw [hno] at h18; cases h18
    · rw [hno] at h17; cases h17

theorem execEmit_withoutValue (h : s.Decoding t n frame .checked) (hd : t.record n.val = none) :
    execEmit s = .refused .operandWithoutValue := by
  rw [execEmit, h.atStage_runs, hd]

/-- Settles O3: commands ask for no DECODE in progress, phases for one at their stage, and then for their operands. -/
theorem commandsAndPhasesRefusedOutOfPlace : Obligations.CommandsAndPhasesRefusedOutOfPlace := by
  refine fun i s => ⟨exec_command_inProgress, exec_phase_noTransaction, fun t n frame st h => ⟨fun hi hcheck hst => ?_,
    fun hst => h.exec_outOfPlace rfl hst, fun hst => h.exec_outOfPlace rfl hst, fun hst => h.exec_outOfPlace rfl hst,
    ?_, ?_, ?_, ?_⟩⟩
  · exact h.exec_outOfPlace hi (by rwa [stageOf_eq_checked hcheck])
  · rintro a k rfl ha hk hge
    exact execExt_beyond h ha hk hge
  · rintro rfl hf
    exact execDropHdr_withoutValue h hf
  · rintro rfl hno
    exact execExt_withoutValue h hno
  · rintro rfl hno
    exact execEmit_withoutValue h (Txn.record_eq_none hno)

/-! ### What a phase leaves unchanged -/

/-- A fixed extractor stands at one place (42_unpack.md R134 to R149). -/
theorem fixedExtractors_index_unique {j k : Nat} (hj : fixedExtractors[j]? = some i)
    (hk : fixedExtractors[k]? = some i) : j = k := by
  have hlt : j < fixedExtractors.length := (List.getElem?_eq_some_iff.mp hj).1
  exact (List.getElem?_inj hlt (by decide)).mp (hj.trans hk.symm)

/-- EXT is no fixed extractor. -/
theorem ext_not_fixed {k : Nat} : fixedExtractors[k]? ≠ some .ext := fun h =>
  absurd (List.mem_of_getElem? h) (by decide)

/-- No phase changes CFG, NCH or anything outside the block (10_state.md R20). -/
theorem PhaseEffect.keeps_block (h : PhaseEffect s t n i u) : u.cfg = s.cfg ∧ u.nch = s.nch ∧ SameOutside s u := by
  cases h <;> exact ⟨rfl, rfl, rfl, rfl, rfl⟩

/-- Settles O31: the effects of a phase, each with the one value it changes. -/
theorem phasesChangeOnlyTheirOwnValue : Obligations.PhasesChangeOnlyTheirOwnValue := by
  intro i s u hi h
  obtain ⟨t, n, ht, -, -, heffect⟩ := phase_next hi h
  obtain ⟨hcfg, hnch, hout⟩ := heffect.keeps_block
  refine ⟨hcfg, hnch, hout, fun w hw => ?_⟩
  cases heffect
  case chkLenFails | chkHdrFails | chkEndFails | emit => cases hw
  case fixedSkips =>
    cases ht.symm.trans hw
    exact ⟨fun _ => rfl, rfl, t, ht, by simp⟩
  all_goals
    cases hw
    refine ⟨fun _ => rfl, rfl, t, ht, rfl, rfl, ?_⟩
  case ext => simp [ext_not_fixed]
  case fixedFills k a m sh v hs hbits hwide hin hk hm hfixed =>
    have hmem := List.mem_of_getElem? hfixed
    simp only [ne_eq, implies_true, and_self, hmem, not_true_eq_false, false_implies, true_and, and_true]
    intro j hj l hl hne
    rw [fixedExtractors_index_unique hj hfixed] at hne
    exact Vector.getElem_setIfInBounds_ne hl (Ne.symm hne)
  all_goals simp

/-! ### EXT and its loop -/

/-- Settles O25: EXT's exact next state, with its values as integers. -/
theorem extTakesOneChannel : Obligations.ExtTakesOneChannel := by
  intro s t n frame a i h ha hi hlt
  have hv : (a.setWidth 11).toNat = a.toNat &&& 0x7FF := by
    rw [BitVec.toNat_setWidth, ← Nat.and_two_pow_sub_one_eq_mod]
  have hb : (a >>> 11).toNat = a.toNat >>> 11 := BitVec.toNat_ushiftRight a 11
  have hj : (i + 1).toNat = i.toNat + 1 := by
    rw [BitVec.toNat_add]
    exact Nat.mod_eq_of_lt (by have := n.isLt; change i.toNat + 1 < 32; omega)
  refine ⟨_, _, _, execExt_eq h ha hi hlt, hv, hb, hj, fun hF => ⟨?_, ?_⟩⟩
  · rw [BitVec.toNat_setWidth, hF]
  · rw [hb, hF, hj, ← Nat.shiftRight_add, Nat.mul_succ, Nat.add_assoc]

/-- Settles O26: DROPHDR makes the accumulator, and the loop fills the slots from it. -/
theorem extRunsOncePerRetainedChannel : Obligations.ExtRunsOncePerRetainedChannel := by
  intro s t n frame f h hl hf hF
  have hd := h.withTxn (w := { t with acc := some ((f >>> 8).setWidth 192), idx := some 0 }) rfl h.stage
  have hacc : ((f >>> 8).setWidth 192).toNat = frameInt frame >>> 8 := by rw [dropHdr_toNat, hF]
  have hloop := runPhases_replicate_execExt hd rfl rfl hacc n.val le_rfl
  rw [← execDropHdr_eq h hf] at hloop
  have hidx : (BitVec.ofNat 5 n.val).toNat = n.val := by
    rw [BitVec.toNat_ofNat]
    omega
  exact ⟨_, _, hloop, rfl, congrArg some hidx, getElem_fillSlots _ _ _⟩

/-! ### The fixed extractors -/

/-- A fixed extractor below NCH fills its slot with its channel (42_unpack.md R134 to R149). -/
theorem extractFixed_eq {k a m sh : Nat} (h : s.Decoding t n frame .checked) (hl : frame.length = 25)
    (hbits : 8 * a + sh = 8 + 11 * k) (hwide : sh + 11 ≤ 8 * m) (hin : a + m ≤ 25) : extractFixed k a m sh s =
      .next (if k < n.val then s.withTxn { t with ch := t.ch.setIfInBounds k (some (chanOfInt (frameInt frame) k)) }
        else s) := by
  rw [extractFixed, h.atStage_runs]
  by_cases hk : k < n.val
  · rw [if_pos hk, if_pos hk, loadOctets_frame _ h.mem (hl ▸ hin), chanOf_slice _ hbits hwide]
  · rw [if_neg hk, if_neg hk]

/-- A fixed extractor whose octets span the bits of channel `k` extracts that channel, by whatever formula gives the
shifted octets. -/
theorem extractsChannel_of_span {k a m sh : Nat} {octets : (Nat → Nat) → Nat}
    (hexec : ∀ s, exec i s = extractFixed k a m sh s) (hbits : 8 * a + sh = 8 + 11 * k) (hwide : sh + 11 ≤ 8 * m)
    (hin : a + m ≤ 25) (hoctets : ∀ frame, ((frameInt frame / 256 ^ a % 256 ^ m) >>> sh) &&& 0x7FF =
      octets fun j => (octetAt frame j).toNat) : ExtractsChannel i k a m sh octets := by
  intro s t c frame h hl
  have hm := h.mem ▸ Memory.readLE_ofOctets_eq frame a m (hl ▸ hin)
  have hv : (chanOfInt (frameInt frame) k).toNat = ((frameInt frame / 256 ^ a % 256 ^ m) >>> sh) &&& 0x7FF := by
    rw [← chanOf_slice _ hbits hwide, chanOf_toNat]
  exact ⟨_, _, (hexec s).trans (extractFixed_eq h hl hbits hwide hin), hm, hv, hv.trans (hoctets frame),
    chanOfInt_toNat _ _⟩

/-- The value of two octets, shifted by at most 5, as each octet's share of the eleven bits (30_encoding.md R74). -/
theorem channel_of_two_octets {x y sh : Nat} (hx : x < 256) (hsh : sh ≤ 5) :
    ((x + 256 * y) >>> sh) &&& 0x7FF = (x >>> sh) ||| ((y &&& (2 ^ (3 + sh) - 1)) <<< (8 - sh)) := by
  have hshare : x >>> sh < 2 ^ (8 - sh) := by
    interval_cases sh <;> omega
  rw [Nat.or_comm, ← Nat.shiftLeft_add_eq_or_of_lt hshare, Nat.and_two_pow_sub_one_eq_mod,
    show 0x7FF = 2 ^ 11 - 1 from rfl, Nat.and_two_pow_sub_one_eq_mod]
  interval_cases sh <;> omega

/-- The value of three octets, shifted by 6 or 7, as each octet's share of the eleven bits (30_encoding.md R74). -/
theorem channel_of_three_octets {x y z sh : Nat} (hx : x < 256) (hy : y < 256) (hsh : sh = 6 ∨ sh = 7) :
    ((x + 256 * (y + 256 * z)) >>> sh) &&& 0x7FF =
      (x >>> sh) ||| (y <<< (8 - sh)) ||| ((z &&& (2 ^ (sh - 5) - 1)) <<< (16 - sh)) := by
  have hshare : x >>> sh < 2 ^ (8 - sh) := by
    rcases hsh with rfl | rfl <;> omega
  have hshares : y <<< (8 - sh) + x >>> sh < 2 ^ (16 - sh) := by
    rcases hsh with rfl | rfl <;> omega
  rw [Nat.or_comm (x >>> sh), ← Nat.shiftLeft_add_eq_or_of_lt hshare, Nat.or_comm,
    ← Nat.shiftLeft_add_eq_or_of_lt hshares, Nat.and_two_pow_sub_one_eq_mod, show 0x7FF = 2 ^ 11 - 1 from rfl,
    Nat.and_two_pow_sub_one_eq_mod]
  rcases hsh with rfl | rfl <;> omega

theorem div_256_pow_succ (F a : Nat) : F / 256 ^ (a + 1) = F / 256 ^ a / 256 := by
  rw [Nat.pow_succ, Nat.div_div_eq_div_mul]

theorem slice_two (frame : List Byte) (a : Nat) : frameInt frame / 256 ^ a % 256 ^ 2 =
    (octetAt frame a).toNat + 256 * (octetAt frame (a + 1)).toNat := by
  rw [octetAt_toNat, octetAt_toNat, div_256_pow_succ]
  omega

theorem slice_three (frame : List Byte) (a : Nat) : frameInt frame / 256 ^ a % 256 ^ 3 =
    (octetAt frame a).toNat + 256 * ((octetAt frame (a + 1)).toNat + 256 * (octetAt frame (a + 2)).toNat) := by
  rw [octetAt_toNat, octetAt_toNat, octetAt_toNat, div_256_pow_succ _ (a + 1), div_256_pow_succ _ a]
  omega

/-- A fixed extractor of two octets, by the formula of its rule. -/
theorem extractsChannel_of_two {k a sh : Nat} (hexec : ∀ s, exec i s = extractFixed k a 2 sh s)
    (hbits : 8 * a + sh = 8 + 11 * k) (hsh : sh ≤ 5) (hin : a + 2 ≤ 25) : ExtractsChannel i k a 2 sh
      (fun o => (o a >>> sh) ||| ((o (a + 1) &&& (2 ^ (3 + sh) - 1)) <<< (8 - sh))) :=
  extractsChannel_of_span hexec hbits (by omega) hin fun frame => by
    rw [slice_two, channel_of_two_octets (octetAt frame a).isLt hsh]

/-- A fixed extractor of two octets that takes all of the second one. -/
theorem extractsChannel_of_two_whole {k a : Nat} (hexec : ∀ s, exec i s = extractFixed k a 2 5 s)
    (hbits : 8 * a + 5 = 8 + 11 * k) (hin : a + 2 ≤ 25) : ExtractsChannel i k a 2 5
      (fun o => (o a >>> 5) ||| (o (a + 1) <<< 3)) :=
  extractsChannel_of_span hexec hbits (by omega) hin fun frame => by
    rw [slice_two, channel_of_two_octets (octetAt frame a).isLt le_rfl, Nat.and_two_pow_sub_one_of_lt_two_pow
      (octetAt frame (a + 1)).isLt]

/-- A fixed extractor of three octets, by the formula of its rule. -/
theorem extractsChannel_of_three {k a sh : Nat} (hexec : ∀ s, exec i s = extractFixed k a 3 sh s)
    (hbits : 8 * a + sh = 8 + 11 * k) (hsh : sh = 6 ∨ sh = 7) (hin : a + 3 ≤ 25) : ExtractsChannel i k a 3 sh
      (fun o => (o a >>> sh) ||| (o (a + 1) <<< (8 - sh)) ||| ((o (a + 2) &&& (2 ^ (sh - 5) - 1)) <<< (16 - sh))) :=
  extractsChannel_of_span hexec hbits (by omega) hin fun frame => by
    rw [slice_three, channel_of_three_octets (octetAt frame a).isLt (octetAt frame (a + 1)).isLt hsh]

/-- Settles O27: each extractor spans the bits of its channel, in two octets or in three. -/
theorem extractorsOfChannels0To7 : Obligations.ExtractorsOfChannels0To7 :=
  ⟨extractsChannel_of_two (fun _ => rfl) rfl (by decide) (by decide),
    extractsChannel_of_two (fun _ => rfl) rfl (by decide) (by decide),
    extractsChannel_of_three (fun _ => rfl) rfl (by decide) (by decide),
    extractsChannel_of_two (fun _ => rfl) rfl (by decide) (by decide),
    extractsChannel_of_two (fun _ => rfl) rfl (by decide) (by decide),
    extractsChannel_of_three (fun _ => rfl) rfl (by decide) (by decide),
    extractsChannel_of_two (fun _ => rfl) rfl (by decide) (by decide),
    extractsChannel_of_two_whole (fun _ => rfl) rfl (by decide)⟩

/-- Settles O28: as for channels 0 to 7, eleven octets on. -/
theorem extractorsOfChannels8To15 : Obligations.ExtractorsOfChannels8To15 :=
  ⟨extractsChannel_of_two (fun _ => rfl) rfl (by decide) (by decide),
    extractsChannel_of_two (fun _ => rfl) rfl (by decide) (by decide),
    extractsChannel_of_three (fun _ => rfl) rfl (by decide) (by decide),
    extractsChannel_of_two (fun _ => rfl) rfl (by decide) (by decide),
    extractsChannel_of_two (fun _ => rfl) rfl (by decide) (by decide),
    extractsChannel_of_three (fun _ => rfl) rfl (by decide) (by decide),
    extractsChannel_of_two (fun _ => rfl) rfl (by decide) (by decide),
    extractsChannel_of_two_whole (fun _ => rfl) rfl (by decide)⟩

end Sys2Proof.Machine
end


section
/-! The invariant of the machine, 10_state.md and 20_memory.md: reset meets it, every instruction and every step keeps
it, and under it no read of the frame fails. -/

namespace Sys2Proof.Machine

open Sys2Proof

variable {s u : State} {t w : Txn} {n : Fin 17} {frame : List Byte} {i : Instr}

/-! ### What the invariant says -/

/-- Settles O40: after reset nothing holds a value. -/
theorem resetMeetsTheInvariant : Obligations.ResetMeetsTheInvariant :=
  ⟨by decide, reset_mem_wf, fun _ => rfl, nofun, nofun⟩

/-- The invariant speaks of CFG, NCH, the DECODE in progress, its frame and the result ports alone. -/
theorem State.Inv.congr (h : s.Inv) (hcfg : u.cfg = s.cfg) (hnch : u.nch = s.nch) (htxn : u.txn = s.txn)
    (hmem : u.mem = s.mem) (hresult : u.result = s.result) : u.Inv := by
  constructor
  · rw [hcfg, hnch]; exact h.count
  · rw [hmem]; exact h.canonical
  · rw [htxn, hmem]; exact h.idle
  · rw [htxn, hnch, hmem, hresult]; exact h.busy
  · rw [hnch, hresult]; exact h.answer

/-- Clearing the result ports keeps the invariant (10_state.md R35). -/
theorem State.Inv.taken (h : s.Inv) (rest : List Input) : (s.taken rest).Inv :=
  ⟨h.count, h.canonical, h.idle, fun t ht => ⟨rfl, (h.busy t ht).2⟩, nofun⟩

/-- A DECODE in progress is one of a frame, with its values in agreement. -/
theorem State.Inv.decoding (h : s.Inv) (ht : s.txn = some t) : s.result = none ∧ ∃ n frame, s.cfg = .ready ∧
    s.nch = some n ∧ s.mem = Memory.ofOctets frame ∧ t.Agrees n frame := by
  obtain ⟨hresult, n, frame, hnch, hmem, hagrees⟩ := h.busy t ht
  exact ⟨hresult, n, frame, h.count.mp (by rw [hnch]; rfl), hnch, hmem, hagrees⟩

/-- With the checks begun the frame has 25 octets, and reads inside it have their values. -/
theorem Txn.Agrees.readLE (h : t.Agrees n frame) (hstage : t.stage ≠ .opened) {a m : Nat} (hin : a + m ≤ 25) :
    (Memory.ofOctets frame).readLE a m = some (frameInt frame / 256 ^ a % 256 ^ m) :=
  Memory.readLE_ofOctets_eq frame a m (by rw [h.lenOk hstage]; exact hin)

/-- A read of one octet of the frame is that octet. -/
theorem octetAt_of_readLE {a : Nat} {b : Byte} (h : (Memory.ofOctets frame).readLE a 1 = some b.toNat) :
    octetAt frame a = b := by
  rcases Nat.lt_or_ge a frame.length with ha | ha
  · rw [Memory.readLE_ofOctets_eq frame a 1 ha, Nat.pow_one, ← octetAt_toNat] at h
    exact BitVec.eq_of_toNat_eq (Option.some.inj h)
  · rw [Memory.readLE_ofOctets_none frame a 1 (by omega) Nat.one_pos] at h
    cases h

/-! ### What keeps it -/

/-- New transient values that agree with the frame keep the invariant. -/
theorem State.Inv.withTxn (h : s.Inv) (ht : s.txn = some t)
    (hw : ∀ n frame, s.nch = some n → s.mem = Memory.ofOctets frame → t.Agrees n frame → w.Agrees n frame) :
    (s.withTxn w).Inv := by
  refine ⟨h.count, h.canonical, nofun, fun w' hw' => ?_, h.answer⟩
  cases hw'
  obtain ⟨hresult, n, frame, hnch, hmem, hagrees⟩ := h.busy t ht
  exact ⟨hresult, n, frame, hnch, hmem, hw n frame hnch hmem hagrees⟩

/-- A command that ends with an answer keeps the invariant, a DecodedFrame with NCH channels. -/
theorem State.Inv.closeTxn_answer (h : s.Inv) {r : Result}
    (hr : ∀ d, r = .ok d → ∃ n, s.nch = some n ∧ d.channels.length = n.val) : (s.closeTxn.answer r).Inv :=
  ⟨h.count, Memory.nil_wf, fun _ => rfl, nofun, fun d hd => hr d (Option.some.inj hd)⟩

/-- A DECODE that opens on a READY instance begins in agreement with its frame: nothing holds a value yet. -/
theorem Txn.start_agrees (n : Fin 17) (frame : List Byte) (todo : List Instr) :
    (Txn.start frame.length todo).Agrees n frame := by
  constructor <;> simp [Txn.start]

theorem openTxn_keeps_inv {form : Form} (h : s.Inv) (hu : openTxn form frame s = .next u) : u.Inv := by
  obtain ⟨n, hcfg, hnch, htxn, rfl⟩ := openTxn_next hu
  refine ⟨h.count, Memory.ofOctets_wf frame, nofun, fun t ht => ?_, nofun⟩
  cases ht
  exact ⟨rfl, n, frame, hnch, rfl, Txn.start_agrees n frame _⟩

/-- A channel put in its slot agrees with the frame. -/
theorem Txn.Agrees.setSlot (h : t.Agrees n frame) {k : Nat} (hk : k < n.val) {j : Nat} {hj : j < 16} {v : Chan}
    (hv : (t.ch.setIfInBounds k (some (chanOfInt (frameInt frame) k)))[j] = some v) :
    j < n.val ∧ v = chanOfInt (frameInt frame) j := by
  rw [Vector.getElem_setIfInBounds] at hv
  split at hv
  · rename_i hkj
    cases hv
    cases hkj
    exact ⟨hk, rfl⟩
  · exact h.ch j hj v hv

/-- EXT keeps the agreement: the low 11 bits of ACC are channel IDX, and ACC moves on with IDX (42_unpack.md R132). -/
theorem Txn.Agrees.ext (h : t.Agrees n frame) {a : BitVec 192} {i : BitVec 5} (ha : t.acc = some a) (hi : t.idx = some i)
    (hlt : i.toNat < n.val) : Txn.Agrees { t with
      ch := t.ch.setIfInBounds i.toNat (some (a.setWidth 11)), acc := some (a >>> 11), idx := some (i + 1) } n frame := by
  obtain ⟨-, hacc⟩ := h.acc a i ha hi
  have hchan : a.setWidth 11 = chanOfInt (frameInt frame) i.toNat := by
    apply BitVec.eq_of_toNat_eq
    rw [BitVec.toNat_setWidth, chanOfInt_toNat, hacc]
  have hnext : (i + 1).toNat = i.toNat + 1 := by
    rw [BitVec.toNat_add]
    exact Nat.mod_eq_of_lt (by have := n.isLt; change i.toNat + 1 < 32; omega)
  refine { h with acc := fun b j hb hj => ?_, ch := fun j hj v hv => ?_ }
  · cases hb
    cases hj
    rw [hnext, BitVec.toNat_ushiftRight, hacc, ← Nat.shiftRight_add, Nat.mul_succ, Nat.add_assoc]
    exact ⟨hlt, rfl⟩
  · rw [hchan] at hv
    exact h.setSlot hlt hv

/-- Every effect of a phase keeps the invariant. -/
theorem PhaseEffect.keeps_inv (h : PhaseEffect s t n i u) (hinv : s.Inv) (ht : s.txn = some t) (hn : s.nch = some n) :
    u.Inv := by
  cases h
  case chkLenFails | chkHdrFails | chkEndFails => exact hinv.closeTxn_answer fun _ hd => by cases hd
  case emit d hs hd =>
    refine hinv.closeTxn_answer fun d' hd' => ?_
    cases hd'
    exact ⟨n, hn, length_of_allValues_slots (Txn.record_eq_some hd).1⟩
  case fixedSkips => exact hinv
  all_goals
    refine hinv.withTxn ht fun n' frame hn' hmem hagrees => ?_
    cases hn.symm.trans hn'
  case chkLenPasses hs hl =>
    exact { hagrees with
      lenOk := fun _ => hagrees.len.symm.trans hl
      hdrOk := fun h => by simp at h
      endOk := fun h => by simp at h }
  case chkHdrPasses b hs hm hb =>
    exact { hagrees with
      lenOk := fun _ => hagrees.lenOk (by simp [hs])
      hdrOk := fun _ => (octetAt_of_readLE (hmem ▸ hm)).trans hb
      endOk := fun h => by simp at h }
  case chkEndPasses b hs hm hb =>
    exact { hagrees with
      lenOk := fun _ => hagrees.lenOk (by simp [hs])
      hdrOk := fun _ => hagrees.hdrOk (.inl hs)
      endOk := fun _ => (octetAt_of_readLE (hmem ▸ hm)).trans hb }
  case asm v hs hm =>
    have hl : frame.length = 25 := hagrees.lenOk (by simp [hs])
    have hread := Memory.readLE_ofOctets frame 0 25 hl.ge
    rw [← hmem, hm, List.drop_zero, List.take_of_length_le hl.le] at hread
    cases hread
    exact { hagrees with f := fun f hf => by cases hf; exact toNat_ofNat_frameInt hl }
  case dropHdr f hs hf =>
    refine { hagrees with acc := fun a j ha hj => ?_ }
    cases ha
    cases hj
    exact ⟨Nat.zero_le _, by rw [dropHdr_toNat, hagrees.f f hf]; rfl⟩
  case ext a j hs ha hj hlt => exact hagrees.ext ha hj hlt
  case fixedFills k a m sh v hs hbits hwide hin hk hm hfixed =>
    have hread := hagrees.readLE (by simp [hs]) hin
    rw [← hmem, hm] at hread
    cases hread
    rw [chanOf_slice _ hbits hwide]
    exact { hagrees with ch := fun j hj v hv => hagrees.setSlot hk hv }
  case flgFs b hs hm =>
    exact { hagrees with failsafe := fun _ hb => by cases hb; rw [octetAt_of_readLE (hmem ▸ hm)] }
  case flgFl b hs hm =>
    exact { hagrees with frameLost := fun _ hb => by cases hb; rw [octetAt_of_readLE (hmem ▸ hm)] }
  case flgCh18 b hs hm =>
    exact { hagrees with ch18 := fun _ hb => by cases hb; rw [octetAt_of_readLE (hmem ▸ hm)] }
  case flgCh17 b hs hm =>
    exact { hagrees with ch17 := fun _ hb => by cases hb; rw [octetAt_of_readLE (hmem ▸ hm)] }

/-- Every instruction that goes on keeps the invariant. -/
theorem exec_keeps_inv (h : s.Inv) (hu : exec i s = .next u) : u.Inv := by
  cases hi : isCommand i with
  | false =>
    obtain ⟨t, n, ht, -, hn, heffect⟩ := phase_next hi hu
    exact heffect.keeps_inv h ht hn
  | true =>
    cases i with
    | config m =>
      obtain ⟨ht, hc, ⟨c, rfl⟩ | ⟨-, rfl⟩⟩ := exec_config_next hu
      · exact ⟨by simp, h.canonical, h.idle, fun t ht' => (nomatch ht.symm.trans ht'), nofun⟩
      · have hnch : s.nch = none := by simpa [hc] using h.count
        exact ⟨by simp [hnch], h.canonical, h.idle, fun t ht' => (nomatch ht.symm.trans ht'), nofun⟩
    | decode frame =>
      obtain ⟨n, hr, rfl⟩ := exec_decode_next hu
      refine h.closeTxn_answer fun d hd => ⟨n, hr.nch, ?_⟩
      obtain ⟨hl, hh, he⟩ := (decodeResult_isOk_iff n.val frame).mp ⟨d, hd⟩
      rw [decodeResult_of_valid n.val hl hh he] at hd
      cases hd
      exact decodedFrame_channels_length n.val frame
    | _ => cases hi

/-- The list of phases to run plays no part in the invariant. -/
theorem State.Inv.withTodo (h : s.Inv) (ht : s.txn = some t) (todo : List Instr) :
    (s.withTxn { t with todo := todo }).Inv :=
  h.withTxn ht fun _ _ _ _ hagrees => { hagrees with }

theorem State.Inv.resetBlock (s : State) : s.resetBlock.Inv :=
  ⟨by simp, Memory.nil_wf, fun _ => rfl, nofun, nofun⟩

/-- Settles O41: a step clears the result ports, takes an input, resets, or runs an instruction, and each of these keeps
the invariant. -/
theorem stepKeepsTheInvariant : Obligations.StepKeepsTheInvariant := by
  intro s u h hu
  cases step_next hu with
  | move r hr => exact (h.taken s.inbox).congr rfl rfl rfl rfl rfl
  | idle hr ht hi => exact h.taken _
  | reset rest hr hi => exact State.Inv.resetBlock _
  | command c i rest _ hr ht hi hd hrun =>
    rcases runInstr_next hrun with hrun | ⟨form, frame, hrun, -⟩
    · exact exec_keeps_inv (h.taken rest) hrun
    · exact openTxn_keeps_inv (h.taken rest) hrun
  | event e r presented rest hr ht hi he => exact (h.taken rest).congr rfl rfl rfl rfl rfl
  | phase t i rest _ hr ht htodo hno hrun => exact exec_keeps_inv ((h.taken _).withTodo ht rest) hrun

/-! ### Where a fault comes from -/

/-- A fault of a phase: inside a DECODE past CHK.LEN it has read octets of the first 25, and one of them does not exist
(20_memory.md R50, log entry 6). -/
structure FaultsOutside (s : State) (t : Txn) (a m : Nat) (r : Fault) : Prop where
  txn    : s.txn = some t
  stage  : t.stage ≠ .opened
  within : a + m ≤ 25
  fault  : r = .outsideFrame a m
  absent : s.mem.readLE a m = none

/-- A phase past CHK.LEN that reads the frame, and then goes on or is refused, faults only there. -/
theorem atStage_loadOctets_fault {st : Stage} {a m : Nat} {k : Txn → Fin 17 → Nat → Answer} {r : Fault}
    (h : atStage st s (fun t n => loadOctets s a m (k t n)) = .fault r) (hst : st ≠ .opened) (hin : a + m ≤ 25)
    (hk : ∀ t n v, k t n v ≠ .fault r) : ∃ t a m, FaultsOutside s t a m r := by
  obtain ⟨t, n, ht, hs, hload⟩ := atStage_fault h
  obtain ⟨hr, hm⟩ := loadOctets_fault (hk t n) hload
  exact ⟨t, a, m, ht, hs ▸ hst, hin, hr, hm⟩

theorem extractFixed_fault {k a m sh : Nat} {r : Fault} (hin : a + m ≤ 25) (h : extractFixed k a m sh s = .fault r) :
    ∃ t a m, FaultsOutside s t a m r := by
  obtain ⟨t, n, ht, hs, hload⟩ := atStage_fault h
  split at hload
  · obtain ⟨hr, hm⟩ := loadOctets_fault (fun v hv => by cases hv) hload
    exact ⟨t, a, m, ht, by simp [hs], hin, hr, hm⟩
  · cases hload

/-- A phase that faults has read an octet that does not exist. -/
theorem exec_phase_fault {r : Fault} (hi : isCommand i = false) (h : exec i s = .fault r) :
    ∃ t a m, FaultsOutside s t a m r := by
  have hcheck : ∀ (b c : Byte) (u v : State), (if b = c then (.next u : Answer) else .next v) ≠ .fault r := by
    intro b c u v
    split <;> nofun
  cases i with
  | config n => cases hi
  | decode f => cases hi
  | chkLen =>
    obtain ⟨t, n, -, -, h⟩ := atStage_fault h
    split at h <;> cases h
  | chkHdr => exact atStage_loadOctets_fault h (by decide) (by decide) fun _ _ _ => hcheck _ _ _ _
  | chkEnd => exact atStage_loadOctets_fault h (by decide) (by decide) fun _ _ _ => hcheck _ _ _ _
  | asm | flgFs | flgFl | flgCh18 | flgCh17 => exact atStage_loadOctets_fault h (by decide) (by decide) fun _ _ _ => nofun
  | dropHdr =>
    obtain ⟨t, n, -, -, h⟩ := atStage_fault h
    split at h <;> cases h
  | ext =>
    obtain ⟨t, n, -, -, h⟩ := atStage_fault h
    split at h
    · split at h <;> cases h
    · cases h
  | emit =>
    obtain ⟨t, n, -, -, h⟩ := atStage_fault h
    split at h <;> cases h
  | extCh0 | extCh1 | extCh2 | extCh3 | extCh4 | extCh5 | extCh6 | extCh7 => exact extractFixed_fault (by decide) h
  | extCh8 | extCh9 | extCh10 | extCh11 | extCh12 | extCh13 | extCh14 | extCh15 => exact extractFixed_fault (by decide) h

/-- No command faults: DECODE reads the octets of a frame whose length has passed. -/
theorem exec_command_ne_fault {r : Fault} (hi : isCommand i = true) : exec i s ≠ .fault r := by
  intro h
  cases i with
  | config n =>
    rcases exec_config_cases n s with ⟨_, hr, -⟩ | ⟨-, -, ⟨_, -, hr⟩ | ⟨-, hr⟩⟩ <;>
      exact nomatch hr.symm.trans h
  | decode frame =>
    by_cases hr : ∃ n, s.Ready n
    · obtain ⟨n, hr⟩ := hr
      exact nomatch (exec_decode_eq hr frame).symm.trans h
    · exact nomatch (exec_decode_refused frame (not_exists.mp hr)).symm.trans h
  | _ => cases hi

theorem exec_fault {r : Fault} (h : exec i s = .fault r) : isCommand i = false ∧ ∃ t a m, FaultsOutside s t a m r := by
  cases hi : isCommand i with
  | false => exact ⟨rfl, exec_phase_fault hi h⟩
  | true => exact absurd h (exec_command_ne_fault hi)

/-- Under the invariant a phase past CHK.LEN has 25 octets to read, so no instruction faults (20_memory.md R57). -/
theorem exec_ne_fault {r : Fault} (hinv : s.Inv) : exec i s ≠ .fault r := by
  intro h
  obtain ⟨-, t, a, m, hf⟩ := exec_fault h
  obtain ⟨-, n, frame, -, -, hmem, hagrees⟩ := hinv.decoding hf.txn
  have habsent := hf.absent
  rw [hmem, hagrees.readLE hf.stage hf.within] at habsent
  cases habsent

theorem openTxn_ne_fault (form : Form) (frame : List Byte) {r : Fault} : openTxn form frame s ≠ .fault r := by
  intro h
  by_cases hr : ∃ n, s.Ready n
  · obtain ⟨n, hr⟩ := hr
    exact nomatch (openTxn_eq form frame hr.cfg hr.nch hr.txn).symm.trans h
  · exact nomatch (openTxn_refused form frame (not_exists.mp hr)).symm.trans h

theorem runInstr_fault {r : Fault} (h : runInstr i s = .fault r) : exec i s = .fault r := by
  unfold runInstr at h
  split at h
  · exact absurd h (openTxn_ne_fault _ _)
  · exact absurd h (openTxn_ne_fault _ _)
  · exact h

theorem takeInput_fault {r : Fault} (h : takeInput s = .fault r) : ∃ i rest, exec i (s.taken rest) = .fault r := by
  unfold takeInput at h
  split at h
  · cases h
  · cases h
  · rename_i c rest hin
    unfold runCommand at h
    split at h
    · exact ⟨_, rest, runInstr_fault h⟩
    · cases h
  · unfold takeEvent at h
    split at h <;> cases h

/-- A step that faults runs an instruction that does, on a state as good as the step began with. -/
theorem step_fault {r : Fault} (h : step s = .fault r) : ∃ i u, exec i u = .fault r ∧ (s.Inv → u.Inv) := by
  have htake : takeInput s = .fault r → ∃ i u, exec i u = .fault r ∧ (s.Inv → u.Inv) := fun h => by
    obtain ⟨i, rest, hi⟩ := takeInput_fault h
    exact ⟨i, _, hi, fun hinv => hinv.taken rest⟩
  unfold step at h
  split at h
  · cases h
  · split at h
    · exact htake h
    · rename_i t ht
      split at h
      · exact htake h
      · unfold runPhase at h
        split at h
        · rename_i i rest htodo
          exact ⟨i, _, h, fun hinv => (hinv.taken _).withTodo ht rest⟩
        · cases h

/-- Settles O32: only a phase faults, at an octet of the first 25 that does not exist, and under the invariant they all
do. -/
theorem noStepFaults : Obligations.NoStepFaults := by
  refine ⟨fun s r hinv h => ?_, fun i s r hinv => exec_ne_fault hinv, fun i s r h => ?_⟩
  · obtain ⟨i, u, hi, hu⟩ := step_fault h
    exact exec_ne_fault (hu hinv) hi
  · obtain ⟨hi, t, a, m, hf⟩ := exec_fault h
    exact ⟨hi, a, m, hf.fault, hf.absent⟩

/-! ### The errors there are -/

/-- The closed form of DECODE answers no error but that of the frame (60_exceptions.md R207). -/
theorem frameError_of_decodeResult {m : Nat} {e : BlockError} (h : decodeResult m frame = .err e) :
    FrameError frame e := by
  by_cases hv : ValidFrame frame
  · obtain ⟨hl, hh, he⟩ := (validFrame_iff frame).mp hv
    exact nomatch (decodeResult_of_valid m hl hh he).symm.trans h
  · obtain ⟨e', herror, he'⟩ := exists_frameError_of_not_validFrame m hv
    cases he'.symm.trans h
    exact herror

/-- Settles O12: of the commands each ends with its own errors, and of the phases the three checks end with the error of
the frame in the buffer. -/
theorem onlyFourErrorsAreReported : Obligations.OnlyFourErrorsAreReported := by
  intro i s u e hinv hnone hu he
  cases hi : isCommand i with
  | true =>
    cases i with
    | config m =>
      obtain ⟨-, -, ⟨c, rfl⟩ | ⟨hc, rfl⟩⟩ := exec_config_next hu
      · cases he
      · cases he
        exact .inr (.inr ⟨m, rfl, rfl, countOf_eq_none_iff.mp hc⟩)
    | decode frame =>
      obtain ⟨n, -, rfl⟩ := exec_decode_next hu
      exact .inl ⟨frame, rfl, frameError_of_decodeResult (Option.some.inj he)⟩
    | _ => cases hi
  | false =>
    obtain ⟨t, n, ht, -, -, heffect⟩ := phase_next hi hu
    obtain ⟨-, n', frame, -, -, hmem, hagrees⟩ := hinv.decoding ht
    refine .inr (.inl ⟨frame, by rw [ht]; rfl, hmem, ?_⟩)
    cases heffect
    case chkLenFails hs hl =>
      cases he
      rw [hagrees.len] at hl ⊢
      exact ⟨.inl ⟨hl, rfl⟩, .inl ⟨rfl, rfl⟩⟩
    case chkHdrFails b hs hm hb =>
      cases he
      have hl := hagrees.lenOk (by simp [hs])
      have hoctet : octetAt frame 0 = b := octetAt_of_readLE (hmem ▸ hm)
      rw [← hoctet] at hb ⊢
      exact ⟨.inr (.inl ⟨hl, hb, rfl⟩), .inr (.inl ⟨rfl, rfl⟩)⟩
    case chkEndFails b hs hm hb =>
      cases he
      have hl := hagrees.lenOk (by simp [hs])
      have hh := hagrees.hdrOk (.inl hs)
      have hoctet : octetAt frame 24 = b := octetAt_of_readLE (hmem ▸ hm)
      rw [← hoctet] at hb ⊢
      exact ⟨.inr (.inr ⟨hl, hh, hb, rfl⟩), .inr (.inr ⟨rfl, rfl⟩)⟩
    case emit => cases he
    all_goals exact nomatch hnone.symm.trans he

/-! ### What only a reset changes -/

/-- No instruction changes CFG or NCH of an instance that is constructed (10_state.md R21, 60_exceptions.md R210). -/
theorem exec_keeps_constructed (hu : exec i s = .next u) (hc : s.cfg ≠ .unconfigured) :
    u.cfg = s.cfg ∧ u.nch = s.nch := by
  cases hi : isCommand i with
  | true =>
    cases i with
    | config m => exact absurd (exec_config_next hu).2.1 hc
    | decode frame =>
      obtain ⟨n, -, rfl⟩ := exec_decode_next hu
      exact ⟨rfl, rfl⟩
    | _ => cases hi
  | false =>
    obtain ⟨t, n, -, -, -, heffect⟩ := phase_next hi hu
    obtain ⟨hcfg, hnch, -⟩ := heffect.keeps_block
    exact ⟨hcfg, hnch⟩

/-- A reset in front is taken, a DECODE in progress or not (70_reset_and_hazards.md R230). -/
theorem step_of_reset {rest : List Input} (hr : readerMove s.reader s.result = none) (hi : s.inbox = .rst :: rest) :
    step s = .next (s.taken rest).resetBlock := by
  have htake : takeInput s = .next (s.taken rest).resetBlock := by rw [takeInput, hi]
  have hreset : s.resetAsserted = true := by simp [State.resetAsserted, hi]
  cases ht : s.txn with
  | none => rw [step_of_input hr ht, htake]
  | some t => rw [step, hr, ht, ← htake]; exact if_pos hreset

/-- Settles O39: the effects a step can have, of which only the reset, and a CONFIG from UNCONFIGURED, touch CFG or
NCH. -/
theorem onlyResetLeavesAConstructedInstance : Obligations.OnlyResetLeavesAConstructedInstance := by
  refine fun s => ⟨fun rest hr hi => ⟨_, step_of_reset hr hi, rfl, rfl, rfl, rfl, rfl, rfl, rfl⟩, fun u hu hno hc => ?_⟩
  cases step_next hu with
  | move r hr => exact ⟨rfl, rfl⟩
  | idle hr ht hi => exact ⟨rfl, rfl⟩
  | reset rest hr hi => simp [State.takesReset, State.resetAsserted, hr, hi] at hno
  | command c i rest _ hr ht hi hd hrun =>
    rcases runInstr_next hrun with hrun | ⟨form, frame, hrun, -⟩
    · exact exec_keeps_constructed (s := s.taken rest) hrun hc
    · obtain ⟨n, -, -, -, rfl⟩ := openTxn_next hrun
      exact ⟨rfl, rfl⟩
  | event e r presented rest hr ht hi he => exact ⟨rfl, rfl⟩
  | phase t i rest _ hr ht htodo hno hrun => exact exec_keeps_constructed (s := (s.taken s.inbox).withTxn _) hrun hc

end Sys2Proof.Machine
end


section
/-! The ports of the two commands, 30_encoding.md: the operand of CONFIG as raw bits and back, the decoder and the encoder
as inverses, and that no well-formed command is turned away. -/

namespace Sys2Proof.Machine

open Sys2Proof

variable {p : Params} {c : Ports} {i : Instr} {s u : State}

/-! ### The operand as raw bits -/

theorem unsignedOf_lt (w : Nat) (n : Int) : unsignedOf w n < 2 ^ w := (BitVec.ofInt w n).isLt

/-- A value that fits the port comes back from its raw bits (30_encoding.md R76). -/
theorem signedOf_unsignedOf {w : Nat} {n : Int} (h : fitsSigned w n) : signedOf w (unsignedOf w n) = n := by
  obtain ⟨hlo, hhi⟩ := h
  rw [signedOf, unsignedOf, BitVec.ofNat_toNat, BitVec.setWidth_eq, BitVec.toInt_ofInt]
  refine Int.bmod_eq_of_le_mul_two ?_ ?_
  · push_cast; omega
  · push_cast; omega

/-- Raw bits that fit the port come back from their value (30_encoding.md R76). -/
theorem unsignedOf_signedOf {w raw : Nat} (h : raw < 2 ^ w) : unsignedOf w (signedOf w raw) = raw := by
  rw [signedOf, unsignedOf, BitVec.ofInt_toInt, BitVec.toNat_ofNat, Nat.mod_eq_of_lt h]

/-- The value of raw bits fits the port (30_encoding.md R76). -/
theorem fitsSigned_signedOf (w raw : Nat) : fitsSigned w (signedOf w raw) :=
  ⟨BitVec.le_two_mul_toInt, BitVec.two_mul_toInt_lt⟩

/-! ### The decoder and the encoder -/

/-- Exactly the two commands have ports (10_state.md R31). -/
theorem encodePorts_isSome (p : Params) (i : Instr) : (encodePorts p i).isSome = isCommand i := by
  cases i with
  | config n => cases n <;> rfl
  | _ => rfl

/-- A well-formed command comes back from its ports (30_encoding.md R79). -/
theorem decodePorts_encodePorts (hw : WellFormed p i) (he : encodePorts p i = some c) : decodePorts p c = .instr i := by
  cases i with
  | config n =>
    cases n with
    | none => cases he; rfl
    | some n =>
      have hfits : fitsSigned p.cfgW n := of_decide_eq_true hw
      cases he
      change (if unsignedOf p.cfgW n < 2 ^ p.cfgW then Decoded.instr _ else _) = _
      rw [if_pos (unsignedOf_lt p.cfgW n), signedOf_unsignedOf hfits]
  | decode frame =>
    have hlen : frame.length ≤ p.lenMax := of_decide_eq_true hw
    cases he
    exact if_pos hlen
  | _ => cases he

/-- Ports that decode to an instruction are those of that well-formed command, but for the ports it does not look at
(30_encoding.md R79). -/
theorem encodePorts_of_decodePorts (hd : decodePorts p c = .instr i) : WellFormed p i ∧ ∃ e, encodePorts p i = some e ∧
    e.cmd = c.cmd ∧ (c.cmd = 0 → e.cfgN = c.cfgN) ∧ (c.cmd = 1 → e.frame = c.frame) := by
  unfold decodePorts at hd
  split at hd
  · rename_i hcmd
    have hne : c.cmd ≠ 1 := by rw [hcmd]; decide
    split at hd
    · rename_i hn
      cases hd
      exact ⟨rfl, _, rfl, hcmd.symm, fun _ => hn.symm, fun h => absurd h hne⟩
    · rename_i raw hn
      split at hd
      · rename_i hraw
        cases hd
        refine ⟨decide_eq_true (fitsSigned_signedOf _ raw), _, rfl, hcmd.symm, fun _ => ?_, fun h => absurd h hne⟩
        rw [hn, unsignedOf_signedOf hraw]
      · cases hd
  · rename_i hcmd
    split at hd
    · rename_i hlen
      cases hd
      refine ⟨decide_eq_true hlen, _, rfl, ?_, fun h => absurd h hcmd, fun _ => rfl⟩
      exact ((BitVec.eq_zero_or_eq_one c.cmd).resolve_left hcmd).symm
    · cases hd

/-- Settles O33: the operand of CONFIG and its raw bits are inverse under every port width, and the frame is its own
octets. -/
theorem portsAndInstructionsAgree : Obligations.PortsAndInstructionsAgree :=
  ⟨fun _ _ _ => decodePorts_encodePorts, encodePorts_isSome, fun _ _ _ => encodePorts_of_decodePorts⟩

/-- Settles O34: the words evaluate. -/
theorem someWordsDecode : Obligations.SomeWordsDecode := by
  unfold Obligations.SomeWordsDecode
  decide

/-! ### The parameters -/

/-- No instruction touches what is outside the block (10_state.md R34). -/
theorem exec_keeps_outside (hu : exec i s = .next u) : SameOutside s u := by
  cases hi : isCommand i with
  | true =>
    cases i with
    | config m =>
      obtain ⟨-, -, ⟨c, rfl⟩ | ⟨-, rfl⟩⟩ := exec_config_next hu
      · exact ⟨rfl, rfl, rfl⟩
      · exact ⟨rfl, rfl, rfl⟩
    | decode frame =>
      obtain ⟨n, -, rfl⟩ := exec_decode_next hu
      exact s.closeTxn_answer_sameOutside _
    | _ => cases hi
  | false =>
    obtain ⟨t, n, -, -, -, heffect⟩ := phase_next hi hu
    exact heffect.keeps_block.2.2

theorem step_keeps_params (hu : step s = .next u) : u.params = s.params := by
  cases step_next hu with
  | move r hr => rfl
  | idle hr ht hi => rfl
  | reset rest hr hi => rfl
  | command c i rest _ hr ht hi hd hrun =>
    rcases runInstr_next hrun with hrun | ⟨form, frame, hrun, -⟩
    · exact (exec_keeps_outside hrun).params
    · obtain ⟨n, -, -, -, rfl⟩ := openTxn_next hrun
      rfl
  | event e r presented rest hr ht hi he => rfl
  | phase t i rest _ hr ht htodo hno hrun => exact (exec_keeps_outside hrun).params

theorem openTxn_ne_notPresentable (form : Form) (frame : List Byte) (r : DecodeReject) :
    openTxn form frame s ≠ .refused (.notPresentable r) := by
  intro h
  by_cases hr : ∃ n, s.Ready n
  · obtain ⟨n, hr⟩ := hr
    exact nomatch (openTxn_eq form frame hr.cfg hr.nch hr.txn).symm.trans h
  · rw [openTxn_refused form frame (not_exists.mp hr)] at h
    split at h <;> cases h

/-- A command that runs is not turned away at the ports: its own refusals are others. -/
theorem exec_command_ne_notPresentable (hi : isCommand i = true) (r : DecodeReject) :
    exec i s ≠ .refused (.notPresentable r) := by
  intro h
  cases i with
  | config n =>
    rcases exec_config_cases n s with ⟨_, hr, rfl | rfl⟩ | ⟨-, -, ⟨_, -, hr⟩ | ⟨-, hr⟩⟩ <;>
      exact nomatch hr.symm.trans h
  | decode frame =>
    by_cases hr : ∃ n, s.Ready n
    · obtain ⟨n, hr⟩ := hr
      exact nomatch (exec_decode_eq hr frame).symm.trans h
    · rw [exec_decode_refused frame (not_exists.mp hr)] at h
      split at h <;> cases h
  | _ => cases hi

theorem runInstr_ne_notPresentable (hi : isCommand i = true) (r : DecodeReject) :
    runInstr i s ≠ .refused (.notPresentable r) := by
  unfold runInstr
  split
  · exact openTxn_ne_notPresentable _ _ r
  · exact openTxn_ne_notPresentable _ _ r
  · exact exec_command_ne_notPresentable hi r

/-- Settles O42: no step writes the parameters, and the ports of a well-formed command decode to it. -/
theorem parametersAreFixed : Obligations.ParametersAreFixed := by
  refine ⟨fun s u => step_keeps_params, fun s i c hw he r => ?_⟩
  have hi : isCommand i = true := by rw [← encodePorts_isSome s.params, he]; rfl
  rw [runCommand, decodePorts_encodePorts hw he]
  exact runInstr_ne_notPresentable hi r

end Sys2Proof.Machine
end


section
/-! The step and the phased forms of DECODE, 40_commands.md R107: a DECODE that goes one phase a step reaches the state
the atomic one reaches. The list of phases still to run is the sequencer's own: no phase reads it, so a run over that list
is `runPhases` over the same phases. -/

namespace Sys2Proof.Machine

open Sys2Proof

variable {s u v : State} {t : Txn} {n : Fin 17} {frame : List Byte} {i : Instr} {c : Ports} {rest : List Input}
  {todo : List Instr}

/-! ### One step -/

theorem step_of_command (hr : readerMove s.reader s.result = none) (ht : s.txn = none) (hi : s.inbox = .command c :: rest)
    (hd : decodePorts s.params c = .instr i) : step s = runInstr i (s.taken rest) := by
  rw [step_of_input hr ht, takeInput, hi]
  simp only [runCommand, State.taken_params, hd]

theorem step_of_phase (hr : readerMove s.reader s.result = none) (ht : s.txn = some t) (htodo : t.todo = i :: todo)
    (hno : s.resetAsserted = false) : step s = exec i ((s.taken s.inbox).withTxn { t with todo := todo }) := by
  rw [step, hr, ht]
  simp only [hno, Bool.false_eq_true, if_false, runPhase, htodo]

theorem runInstr_transaction (i : Instr) (h : s.params.form = .transaction) : runInstr i s = exec i s := by
  simp only [runInstr, h]

theorem runInstr_of_not_decode (s : State) (h : ∀ frame, i ≠ .decode frame) : runInstr i s = exec i s := by
  unfold runInstr
  split
  · exact absurd rfl (h _)
  · exact absurd rfl (h _)
  · rfl

theorem runInstr_decode_phased (frame : List Byte) (h : s.params.form ≠ .transaction) :
    runInstr (.decode frame) s = openTxn s.params.form frame s := by
  cases hf : s.params.form with
  | transaction => exact absurd hf h
  | accumulator => simp only [runInstr, hf]
  | extractors => simp only [runInstr, hf]

/-- Settles O35: the command in front is decoded and run. -/
theorem stepRunsTheDecodedInstruction : Obligations.StepRunsTheDecodedInstruction := by
  intro i c s rest hr ht hi hd
  rw [step_of_command hr ht hi hd]
  refine ⟨fun hf => runInstr_transaction i hf, fun hno => runInstr_of_not_decode _ hno, ?_⟩
  rintro frame rfl hf
  exact runInstr_decode_phased frame hf

/-- Settles O36: the next phase is taken off the list and run. -/
theorem stepRunsTheNextPhase : Obligations.StepRunsTheNextPhase :=
  fun _ _ _ _ => step_of_phase

/-- Settles O38: reset holds no value, and an idle step clears the result ports alone. -/
theorem resetIsUnconfiguredAndWaits : Obligations.ResetIsUnconfiguredAndWaits := by
  refine ⟨rfl, rfl, rfl, rfl, fun s hr ht hi => ?_⟩
  have hidle : step s = .next (s.taken []) := by rw [step_of_input hr ht, takeInput, hi]
  exact ⟨_, hidle, rfl, rfl, ht, fun _ => rfl, rfl, rfl, hi.symm⟩

/-! ### No phase reads the list of phases -/

/-- The DECODE in progress, if there is one, has `todo` to run; nothing else changes. -/
def State.setTodo (todo : List Instr) (s : State) : State :=
  { s with txn := s.txn.map fun t => { t with todo := todo } }

/-- The answer with its next state changed by `f`. -/
def mapNext (f : State → State) : Answer → Answer
  | .next s    => .next (f s)
  | .fault r   => .fault r
  | .refused r => .refused r

theorem State.setTodo_of_closed (todo : List Instr) (h : s.txn = none) : s.setTodo todo = s := by
  rw [State.setTodo, h, Option.map_none, ← h]

@[simp] theorem State.setTodo_cfg (s : State) (todo : List Instr) : (s.setTodo todo).cfg = s.cfg := rfl
@[simp] theorem State.setTodo_nch (s : State) (todo : List Instr) : (s.setTodo todo).nch = s.nch := rfl
@[simp] theorem State.setTodo_mem (s : State) (todo : List Instr) : (s.setTodo todo).mem = s.mem := rfl

theorem State.setTodo_txn (todo : List Instr) (h : s.txn = some t) :
    (s.setTodo todo).txn = some { t with todo := todo } := by
  rw [State.setTodo, h]
  rfl

theorem inTxn_setTodo {k k' : Txn → Fin 17 → Answer}
    (h : ∀ t n, k' { t with todo := todo } n = mapNext (State.setTodo todo) (k t n)) :
    inTxn (s.setTodo todo) k' = mapNext (State.setTodo todo) (inTxn s k) := by
  cases ht : s.txn with
  | none => rw [State.setTodo_of_closed todo ht, inTxn_none k ht, inTxn_none k' ht]; rfl
  | some t =>
    simp only [inTxn, ht, State.setTodo_txn todo ht, State.setTodo_cfg, State.setTodo_nch]
    cases s.cfg with
    | unconfigured | cfgFault => rfl
    | ready =>
      cases s.nch with
      | none => rfl
      | some n => exact h t n

theorem atStage_setTodo {st : Stage} {k k' : Txn → Fin 17 → Answer}
    (h : ∀ t n, k' { t with todo := todo } n = mapNext (State.setTodo todo) (k t n)) :
    atStage st (s.setTodo todo) k' = mapNext (State.setTodo todo) (atStage st s k) := by
  refine inTxn_setTodo fun t n => ?_
  by_cases hs : t.stage = st
  · rw [if_pos hs, if_pos hs, h]
  · rw [if_neg hs, if_neg hs]
    rfl

theorem loadOctets_setTodo {a m : Nat} {k k' : Nat → Answer} (h : ∀ v, k' v = mapNext (State.setTodo todo) (k v)) :
    loadOctets (s.setTodo todo) a m k' = mapNext (State.setTodo todo) (loadOctets s a m k) := by
  rw [loadOctets, loadOctets, State.setTodo_mem]
  cases s.mem.readLE a m with
  | none => rfl
  | some v => exact h v

theorem extractFixed_setTodo (k a m sh : Nat) : extractFixed k a m sh (s.setTodo todo) =
    mapNext (State.setTodo todo) (extractFixed k a m sh s) := by
  refine atStage_setTodo fun t n => ?_
  split
  · exact loadOctets_setTodo fun v => rfl
  · rfl

/-- A phase does the same whatever phases are still to run. -/
theorem exec_setTodo (hi : isCommand i = false) :
    exec i (s.setTodo todo) = mapNext (State.setTodo todo) (exec i s) := by
  cases i with
  | config m => cases hi
  | decode f => cases hi
  | chkLen =>
    refine atStage_setTodo fun t n => ?_
    dsimp only
    split <;> rfl
  | chkHdr | chkEnd =>
    refine atStage_setTodo fun t n => loadOctets_setTodo fun v => ?_
    dsimp only
    split <;> rfl
  | asm | flgFs | flgFl | flgCh18 | flgCh17 => exact atStage_setTodo fun t n => loadOctets_setTodo fun v => rfl
  | dropHdr =>
    refine atStage_setTodo fun t n => ?_
    dsimp only
    split <;> rfl
  | ext =>
    refine atStage_setTodo fun t n => ?_
    dsimp only
    split
    · split <;> rfl
    · rfl
  | emit =>
    refine atStage_setTodo fun t n => ?_
    rw [show Txn.record { t with todo := todo } n.val = t.record n.val from rfl]
    cases t.record n.val <;> rfl
  | extCh0 | extCh1 | extCh2 | extCh3 | extCh4 | extCh5 | extCh6 | extCh7 => exact extractFixed_setTodo _ _ _ _
  | extCh8 | extCh9 | extCh10 | extCh11 | extCh12 | extCh13 | extCh14 | extCh15 => exact extractFixed_setTodo _ _ _ _

/-! ### A run over the list of phases -/

theorem runPhases_fault (r : Fault) (fs : List (State → Answer)) : runPhases (.fault r) fs = .fault r := by
  induction fs with
  | nil => rfl
  | cons f fs ih => rw [runPhases_cons, thenPhase_fault, ih]

/-- Where no result is on the ports, taking no input changes nothing. -/
theorem State.taken_self (h : s.result = none) : s.taken s.inbox = s := by
  rw [State.taken, ← h]

theorem run_succ {k : Nat} (h : step s = .next u) :
    Host.Core.run Sys2Proof.core (k + 1) s = Host.Core.run Sys2Proof.core k u := by
  have hcore : Sys2Proof.core.step s = .next u := h
  simp only [Host.Core.run, hcore]

/-- Nothing comes before the next phase: no move of the reader, no reset, no answer. -/
structure State.Quiet (s : State) : Prop where
  reader  : readerMove s.reader none = none
  result  : s.result = none
  noReset : s.resetAsserted = false

/-- A phase after which the DECODE goes on leaves the machine as quiet as it was. -/
theorem State.Quiet.exec (h : s.Quiet) (hi : isCommand i = false) (hu : exec i s = .next u) (hopen : u.txn ≠ none) :
    u.Quiet := by
  obtain ⟨w, hw⟩ := Option.ne_none_iff_exists'.mp hopen
  obtain ⟨-, -, hout, hkept⟩ := phasesChangeOnlyTheirOwnValue i s u hi hu
  obtain ⟨-, hresult, -⟩ := hkept w hw
  refine ⟨by rw [hout.reader, h.reader], hresult.trans h.result, ?_⟩
  rw [State.resetAsserted, hout.inbox]
  exact h.noReset

/-- A step with phases left to run is the first of them. -/
theorem step_setTodo_cons (h : s.Quiet) (ht : s.txn = some t) (hi : isCommand i = false) :
    step (s.setTodo (i :: todo)) = mapNext (State.setTodo todo) (exec i s) := by
  have hr : readerMove (s.setTodo (i :: todo)).reader (s.setTodo (i :: todo)).result = none := by
    change readerMove s.reader s.result = none
    rw [h.result, h.reader]
  rw [step_of_phase hr (State.setTodo_txn _ ht) rfl h.noReset, ← exec_setTodo hi, State.taken_self (s := s.setTodo _) h.result]
  congr 1
  rw [State.setTodo, State.setTodo, ht]
  rfl

/-- Phases that end the DECODE when run one after the other end it in the same state when run one a step. -/
theorem run_setTodo (todo : List Instr) (hphases : ∀ i ∈ todo, isCommand i = false) (h : s.Quiet) (ht : s.txn ≠ none)
    (hrun : runPhases (.next s) (todo.map exec) = .next v) (hv : v.txn = none) :
    ∃ k ≤ todo.length, Host.Core.run Sys2Proof.core k (s.setTodo todo) = .next v := by
  induction todo generalizing s with
  | nil =>
    cases hrun
    exact absurd hv ht
  | cons i todo ih =>
    obtain ⟨hi, htodo⟩ := List.forall_mem_cons.mp hphases
    obtain ⟨t, ht⟩ := Option.ne_none_iff_exists'.mp ht
    have hstep := step_setTodo_cons (todo := todo) h ht hi
    rw [List.map_cons, runPhases_cons, thenPhase_open _ ht] at hrun
    cases hu : exec i s with
    | fault r => rw [hu, runPhases_fault] at hrun; cases hrun
    | refused r => rw [hu, runPhases_refused] at hrun; cases hrun
    | next u =>
      rw [hu] at hrun hstep
      by_cases hclosed : u.txn = none
      · rw [runPhases_closed _ hclosed] at hrun
        cases hrun
        refine ⟨1, by simp, ?_⟩
        rw [run_succ hstep, State.setTodo_of_closed todo hclosed]
        rfl
      · obtain ⟨k, hk, hkrun⟩ := ih htodo (h.exec hi hu hclosed) hclosed hrun
        exact ⟨k + 1, Nat.succ_le_succ hk, (run_succ hstep).trans hkrun⟩

/-! ### Both forms end in the closed form -/

/-- The three checks before any phases that deliver the record of a valid frame end in the closed form of DECODE
(40_commands.md R104, 41_validate.md R123). -/
theorem runPhases_checks (h : s.Decoding t n frame .opened) (fs : List (State → Answer))
    (hfs : ∀ w, (s.withTxn w).Decoding w n frame .checked → frame.length = 25 →
      runPhases (.next (s.withTxn w)) fs = .next (s.closeTxn.answer (.ok (decodedFrame n.val frame)))) :
    runPhases (.next s) (checkPhases.map exec ++ fs) = .next (s.closeTxn.answer (decodeResult n.val frame)) := by
  change runPhases (.next s) (execChkLen :: execChkHdr :: execChkEnd :: fs) = _
  by_cases hl : frame.length = 25
  case neg => rw [h.ends (execChkLen_fails h hl), decodeResult_of_wrongLength _ hl]
  obtain ⟨runLen, h1⟩ := h.goesOn (execChkLen_passes h hl) rfl rfl
  rw [runLen]
  by_cases hh : octetAt frame 0 = 0x0F
  case neg => rw [h1.ends (execChkHdr_fails h1 hl hh), decodeResult_of_wrongHeader _ hl hh, State.withTxn_closeTxn]
  obtain ⟨runHdr, h2⟩ := h1.goesOn (execChkHdr_passes h1 hl hh) rfl rfl
  rw [runHdr]
  by_cases he : octetAt frame 24 = 0x00
  case neg =>
    rw [h2.ends (execChkEnd_fails h2 hl he), decodeResult_of_wrongEndByte _ hl hh he]
    rfl
  obtain ⟨runEnd, h3⟩ := h2.goesOn (execChkEnd_passes h2 hl he) rfl rfl
  rw [runEnd, decodeResult_of_valid _ hl hh he]
  exact hfs _ h3 hl

/-- The fixed extractor of channel `k` reads the octets of channel `k` (42_unpack.md R134 to R149). -/
theorem exec_fixedExtractor (k : Nat) (hk : k < fixedExtractors.length) (s : State) :
    exec fixedExtractors[k] s = extractFixed k (chanAddr k) (chanOctets k) (chanShift k) s := by
  change k < 16 at hk
  interval_cases k <;> rfl

/-- The first `k` fixed extractors fill the slots below `k` and below NCH, by induction on `k` (42_unpack.md R134 to
R149). -/
theorem runPhases_fixedExtractors (h : s.Decoding t n frame .checked) (hl : frame.length = 25) (k : Nat) (hk : k ≤ 16) :
    runPhases (.next s) ((fixedExtractors.take k).map exec) =
      .next (s.withTxn { t with ch := fillSlots (frameInt frame) (min k n.val) t.ch }) := by
  induction k with
  | zero =>
    rw [Nat.zero_min, fillSlots_zero, h.withTxn_self]
    rfl
  | succ k ih =>
    have hlt : k < fixedExtractors.length := hk
    have hd := h.withTxn (w := { t with ch := fillSlots (frameInt frame) (min k n.val) t.ch }) rfl h.stage
    obtain ⟨hbits, hwide, hin⟩ := chanOctets_span k hk
    have hext := extractFixed_eq (a := chanAddr k) (sh := chanShift k) hd hl hbits hwide hin
    rw [List.take_succ_eq_append_getElem hlt, List.map_append, runPhases_append, ih (Nat.le_of_succ_le hk),
      List.map_singleton, runPhases_cons, thenPhase_open _ rfl, runPhases_nil, exec_fixedExtractor, hext]
    by_cases hkn : k < n.val
    · rw [if_pos hkn, Nat.min_eq_left hkn.le, Nat.min_eq_left hkn, fillSlots_succ]
      rfl
    · rw [if_neg hkn, Nat.min_eq_right (by omega), Nat.min_eq_right (by omega)]

/-- The phases of either phased form end in the closed form of DECODE (40_commands.md R107). -/
theorem runPhases_phasesOf (form : Form) (h : s.Decoding t n frame .opened) :
    runPhases (.next s) ((phasesOf form n.val).map exec) = .next (s.closeTxn.answer (decodeResult n.val frame)) := by
  have haccumulator : (phasesOf .accumulator n.val).map exec = decodePhases n.val := by
    rw [phasesOf, List.map_append, List.map_append, List.map_replicate]
    rfl
  cases form with
  | transaction => exact haccumulator ▸ runPhases_decodePhases h
  | accumulator => exact haccumulator ▸ runPhases_decodePhases h
  | extractors =>
    have hphases : (phasesOf .extractors n.val).map exec =
        checkPhases.map exec ++ ((fixedExtractors.take 16).map exec ++ flagPhases.map exec) := by
      rw [phasesOf, List.map_append, List.map_append, List.append_assoc]
      rfl
    rw [hphases]
    refine runPhases_checks h _ fun w hw hl => ?_
    have hslots := hw.withTxn (w := { w with ch := fillSlots (frameInt frame) n.val w.ch }) rfl hw.stage
    rw [runPhases_append, runPhases_fixedExtractors hw hl 16 le_rfl, Nat.min_eq_right (by omega)]
    exact runPhases_flags_emit hslots hl (allValues_fillSlots _ n _)

theorem phasesOf_length_le (form : Form) (n : Fin 17) : (phasesOf form n.val).length ≤ 26 := by
  cases form with
  | transaction | accumulator =>
    simp [phasesOf, checkPhases, flagPhases]
    omega
  | extractors => exact Nat.le_of_ble_eq_true rfl

theorem phasesOf_are_phases (form : Form) (n : Nat) : ∀ i ∈ phasesOf form n, isCommand i = false := by
  have hcheck : ∀ i ∈ checkPhases, isCommand i = false := by decide
  have hasm : ∀ i ∈ [Instr.asm, Instr.dropHdr], isCommand i = false := by decide
  have hfixed : ∀ i ∈ fixedExtractors, isCommand i = false := by decide
  have hflag : ∀ i ∈ flagPhases, isCommand i = false := by decide
  intro i hi
  cases form with
  | transaction | accumulator =>
    rw [phasesOf, List.mem_append, List.mem_append, List.mem_append] at hi
    rcases hi with ((hi | hi) | hi) | hi
    · exact hcheck i hi
    · exact hasm i hi
    · rw [List.eq_of_mem_replicate hi]; rfl
    · exact hflag i hi
  | extractors =>
    rw [phasesOf, List.mem_append, List.mem_append] at hi
    rcases hi with (hi | hi) | hi
    · exact hcheck i hi
    · exact hfixed i hi
    · exact hflag i hi

theorem plannedPhases_eq {form : Form} (n : Nat) (h : form ≠ .transaction) : plannedPhases form n = phasesOf form n := by
  cases form with
  | transaction => exact absurd rfl h
  | accumulator | extractors => rfl

/-- The DECODE of `frame` has just been opened, with `todo` to run. -/
def State.opened (s : State) (frame : List Byte) (todo : List Instr) : State :=
  { s with txn := some (Txn.start frame.length todo), mem := Memory.ofOctets frame, result := none }

/-- Where READY a DECODE just opened is a DECODE in progress before its checks. -/
theorem State.Ready.opened (h : s.Ready n) (frame : List Byte) (todo : List Instr) :
    (s.opened frame todo).Decoding (Txn.start frame.length todo) n frame .opened :=
  ⟨rfl, h.cfg, h.nch, rfl, rfl, rfl⟩

/-- Settles O37: the command opens the DECODE in one step, and its phases, one a step, end it in the state the atomic
form reaches. -/
theorem phasedFormsRefineTheTransaction : Obligations.PhasedFormsRefineTheTransaction := by
  intro frame n s rest h hform hlen hr hquiet hi hrst
  have hready := h.taken rest
  have hd : decodePorts s.params { cmd := 1, cfgN := none, frame := frame } = .instr (.decode frame) := if_pos hlen
  have hopen : step s = .next ((s.taken rest).opened frame (phasesOf s.params.form n.val)) := by
    rw [step_of_command hr h.txn hi hd, runInstr_decode_phased (s := s.taken rest) frame hform,
      openTxn_eq _ frame hready.cfg hready.nch hready.txn, ← plannedPhases_eq n.val hform]
    rfl
  have hstart : ((s.taken rest).opened frame []).Quiet := ⟨hquiet, rfl, beq_false_of_ne hrst⟩
  obtain ⟨k, hk, hrun⟩ := run_setTodo (phasesOf s.params.form n.val) (phasesOf_are_phases _ _) hstart nofun
    (runPhases_phasesOf s.params.form (hready.opened frame [])) rfl
  have hlength := phasesOf_length_le s.params.form n
  exact ⟨k + 1, _, by omega, (run_succ hopen).trans hrun, exec_decode_eq hready frame⟩

end Sys2Proof.Machine
end


section
/-! The output ports, 10_state.md section 6 and 70_reset_and_hazards.md R237: what they show beside a record and beside an
error, and their codes. -/

namespace Sys2Proof.Machine

open Sys2Proof

variable {s : State}

/-! ### The ports by the result -/

theorem State.resFrame_of_ok {d : DecodedFrame} (h : s.result = some (.ok d)) : s.resFrame = some d := by
  rw [State.resFrame, h]

theorem State.resOk_of_ok {d : DecodedFrame} (h : s.result = some (.ok d)) : s.resOk = some true := by
  rw [State.resOk, h]

theorem State.resOk_of_err {e : BlockError} (h : s.result = some (.err e)) : s.resOk = some false := by
  rw [State.resOk, h]

/-- There is an error record on the ports exactly where the result is an error (10_state.md R27). -/
theorem State.resError_eq_none (h : ∀ e, s.result ≠ some (.err e)) : s.resError = none := by
  unfold State.resError
  split
  · exact absurd ‹_› (h _)
  all_goals rfl

/-- Without an error record the error ports hold no value (70_reset_and_hazards.md R237). -/
theorem State.errPorts_of_resError_none (h : s.resError = none) :
    s.errKind = none ∧ s.errExpected = none ∧ s.errActual = none := by
  simp [State.errKind, State.errExpected, State.errActual, h]

/-- The slot ports hold the channels of the record, and none at or above their number (10_state.md R31). -/
theorem State.resCh_of_ok {d : DecodedFrame} (h : s.result = some (.ok d)) (i : Nat) : s.resCh i = d.channels[i]? := by
  rw [State.resCh, State.resFrame_of_ok h, Option.bind_some]

/-- The error of a frame has an expected and an actual value, both natural (60_exceptions.md R201 to R203). -/
theorem FrameError.exists_values {frame : List Byte} {e : BlockError} (h : FrameError frame e) : ∃ x a : Nat,
    (e = .wrongLength x a ∨ e = .wrongHeader x a ∨ e = .wrongEndByte x a) ∧ e.expected = some x ∧ e.actual = (a : Int) := by
  rcases h with ⟨-, rfl⟩ | ⟨-, -, rfl⟩ | ⟨-, -, -, rfl⟩
  · exact ⟨_, _, .inl rfl, rfl, rfl⟩
  · exact ⟨_, _, .inr (.inl rfl), rfl, rfl⟩
  · exact ⟨_, _, .inr (.inr rfl), rfl, rfl⟩

/-! ### The obligations of the ports -/

/-- Settles O43: the ports are functions of the result, which is the record of a valid frame and the error of any
other. -/
theorem absentOutputsHoldNoValue : Obligations.AbsentOutputsHoldNoValue := by
  intro frame n s h
  refine ⟨_, exec_decode_eq h frame, fun hv => ?_, fun hv => ?_⟩
  · obtain ⟨hl, hh, he⟩ := (validFrame_iff frame).mp hv
    rw [decodeResult_of_valid n.val hl hh he]
    generalize hd : decodedFrame n.val frame = d
    have hlen : d.channels.length = n.val := hd ▸ decodedFrame_channels_length n.val frame
    have hresult : (s.closeTxn.answer (.ok d)).result = some (.ok d) := rfl
    have hframe := State.resFrame_of_ok hresult
    obtain ⟨hkind, hexpected, hactual⟩ := State.errPorts_of_resError_none
      (State.resError_eq_none (s := s.closeTxn.answer (.ok d)) nofun)
    refine ⟨d, rfl, State.resOk_of_ok hresult, hlen, fun i hi => ?_, fun i hi => ?_, rfl, rfl, rfl, rfl, hkind, hexpected,
      hactual⟩
    · have hslot := List.getElem?_eq_getElem (hlen.symm ▸ hi)
      exact ⟨_, hslot, (State.resCh_of_ok hresult i).trans hslot⟩
    · rw [State.resCh_of_ok hresult, List.getElem?_eq_none (hlen.symm ▸ hi)]
  · obtain ⟨e, herror, hanswer⟩ := exists_frameError_of_not_validFrame n.val hv
    obtain ⟨x, a, hkind, hexpected, hactual⟩ := herror.exists_values
    rw [hanswer]
    have hresult : (s.closeTxn.answer (.err e)).result = some (.err e) := rfl
    have hresError := State.resError_of_err hresult
    have hframe := State.resFrame_of_err hresult
    obtain ⟨hfs, hfl, h18, h17⟩ := State.resFlags_of_resFrame_none hframe
    refine ⟨e, x, a, herror, rfl, hkind, State.resOk_of_err hresult, ?_, ?_, ?_, fun i => ?_, hfs, hfl, h18, h17⟩
    · rw [State.errKind, hresError]; rfl
    · rw [State.errExpected, hresError, Option.bind_some, hexpected]
    · rw [State.errActual, hresError, Option.map_some, hactual]
    · rw [State.resCh_of_resFrame_none hframe]

/-- No error has a code above 4 (60_exceptions.md R206). -/
theorem BlockError.code_le (e : BlockError) : e.code ≤ 4 := by
  cases e with
  | wrongLength => exact (by decide : (1 : BitVec 3) ≤ 4)
  | wrongHeader => exact (by decide : (2 : BitVec 3) ≤ 4)
  | wrongEndByte => exact (by decide : (3 : BitVec 3) ≤ 4)
  | configError => exact (by decide : (4 : BitVec 3) ≤ 4)

theorem State.errKind_le {k : BitVec 3} (h : s.errKind = some k) : k ≤ 4 := by
  obtain ⟨e, -, rfl⟩ := Option.map_eq_some_iff.mp h
  exact e.code_le

/-- `cfg_nch` shows NCH, and only where READY (10_state.md R31). -/
theorem State.cfgNch_eq_some {k : BitVec 5} (h : s.cfgNch = some k) :
    s.cfg = .ready ∧ ∃ n : Fin 17, s.nch = some n ∧ k = BitVec.ofNat 5 n.val := by
  unfold State.cfgNch at h
  split at h
  · rename_i hc
    obtain ⟨n, hn, rfl⟩ := Option.map_eq_some_iff.mp h
    exact ⟨hc, n, hn, rfl⟩
  · cases h

/-- Settles O44: the codes are the table's, and no port shows another. -/
theorem portCodesAreTheSpecs : Obligations.PortCodesAreTheSpecs := by
  refine ⟨fun _ _ => ⟨rfl, rfl, rfl⟩, fun _ _ _ => rfl, ⟨rfl, fun _ => rfl⟩, fun s => ⟨fun e he => ?_, fun hno => ?_⟩,
    fun s => ⟨fun h => ?_, fun h => ?_, fun h => ?_, ?_⟩, fun s k h => ?_⟩
  · rw [State.errKind, State.resError_of_err he]; rfl
  · exact (State.errPorts_of_resError_none (State.resError_eq_none hno)).1
  · exact absurd (State.errKind_le h) (by decide)
  · exact absurd (State.errKind_le h) (by decide)
  · exact absurd (State.errKind_le h) (by decide)
  · rw [State.cfgState]
    cases s.cfg <;> decide
  · obtain ⟨hc, n, -, rfl⟩ := State.cfgNch_eq_some h
    refine ⟨by rw [State.cfgState, hc]; rfl, ?_⟩
    rw [BitVec.toNat_ofNat]
    omega

end Sys2Proof.Machine
end


section
/-! The host's FrameReader step by step, 44_host_frame_reader.md: what each event and each move of its own does to it. -/

namespace Sys2Proof.Machine

open Sys2Proof

variable {s : State} {r : Reader} {rest : List Input}

/-! ### Where the reader waits -/

/-- In these phases the reader waits for an event of the host (44_host_frame_reader.md R184). -/
def ReaderPhase.waits : ReaderPhase → Bool
  | .absent | .opening | .reading | .dispatching | .sleeping | .stopped _ => true
  | .constructing | .outerTop _ | .innerTop | .decoding | .closing => false

theorem readerMove_of_waits (answer : Option Result) (h : r.phase.waits = true) : readerMove r answer = none := by
  cases hp : r.phase with
  | absent | opening | reading | dispatching | sleeping | stopped why => simp only [readerMove, hp]
  | constructing | outerTop first | innerTop | decoding | closing => rw [hp] at h; cases h

/-- An event the reader waits for moves it, and what it presents stands in front of the waiting inputs. -/
theorem step_of_awaited_event {e : HostEvent} {p : ReaderPhase} {presented : List Input} (hphase : s.reader.phase = p)
    (hwaits : p.waits = true) (ht : s.txn = none) (hi : s.inbox = .event e :: rest)
    (he : readerEvent s.params e s.reader = some (r, presented)) :
    step s = .next { s.taken rest with reader := r, inbox := presented ++ rest } :=
  step_of_event (readerMove_of_waits _ (hphase ▸ hwaits)) ht hi he

/-! ### READ returns -/

theorem readerEvent_readReturned (p : Params) (o : ReadOutcome) (h : r.phase = .reading) :
    readerEvent p (.readReturned o) r = r.onRead o := by
  simp only [readerEvent, h]

/-- Between 1 and 25 octets go to DECODE (44_host_frame_reader.md R175, 92_eei_decisions.md D26). -/
theorem Reader.onRead_octets {bs : List Byte} (hpos : 0 < bs.length) (hle : bs.length ≤ 25) :
    r.onRead (.octets bs) = some (r.goto .decoding, [decodeInput bs]) := by
  rw [Reader.onRead, if_neg (by omega)]
  exact if_pos hle

/-- Settles O45: each outcome of a READ is an event the reader waits for. -/
theorem readOutcomesSelectTheNextMove : Obligations.ReadOutcomesSelectTheNextMove := by
  intro s o rest hphase ht hi
  have hstep : ∀ r presented, s.reader.onRead o = some (r, presented) →
      step s = .next { s.taken rest with reader := r, inbox := presented ++ rest } := fun r presented ho =>
    step_of_awaited_event hphase rfl ht hi ((readerEvent_readReturned _ _ hphase).trans ho)
  refine ⟨?_, ?_, ?_⟩
  · rintro rfl
    exact ⟨_, hstep _ _ rfl, rfl, rfl, rfl, rfl⟩
  · rintro bs rfl hpos hle
    exact ⟨_, hstep _ _ (Reader.onRead_octets hpos hle), rfl, rfl, rfl⟩
  · rintro rfl
    exact ⟨_, hstep _ _ rfl, rfl, rfl, rfl⟩

/-! ### The reader's own moves -/

/-- Settles O46: with an answer on the ports the reader that waits for one moves. -/
theorem decodeAnswerIsDispatchedOrLogged : Obligations.DecodeAnswerIsDispatchedOrLogged := by
  refine fun s hphase => ⟨fun d hd => ?_, fun e he => ?_⟩
  · have hmove : readerMove s.reader s.result = some ((s.reader.emit (.dispatched d)).goto .dispatching) := by
      simp only [readerMove, hphase, hd]
    exact ⟨_, step_of_readerMove hmove, rfl, rfl⟩
  · have hmove : readerMove s.reader s.result =
        some ((s.reader.emit (.logError (.decodeFailure e))).goto .closing) := by
      simp only [readerMove, hphase, he]
    exact ⟨_, step_of_readerMove hmove, rfl, rfl⟩

/-- A session that ends is closed if it is open, and slept after exactly when `enabled` and RETRY hold
(44_host_frame_reader.md R172, R183). -/
theorem Reader.endSession_cases (r : Reader) : r.endSession.sessionOpen = false ∧
    (r.enabled = true ∧ r.retry = true → r.endSession.phase = .sleeping ∧
      r.endSession.effects = r.effects ++ (if r.sessionOpen then [.closed] else []) ++ [.slept 1]) ∧
    (¬ (r.enabled = true ∧ r.retry = true) → r.endSession.phase = .outerTop false ∧
      r.endSession.effects = r.effects ++ (if r.sessionOpen then [.closed] else [])) := by
  by_cases hflags : r.enabled = true ∧ r.retry = true
  · obtain ⟨henabled, hretry⟩ := hflags
    cases hopen : r.sessionOpen <;> simp [Reader.endSession, henabled, hretry, hopen]
  · have hguard : (r.enabled && r.retry) = false := by simpa using hflags
    cases hopen : r.sessionOpen <;> simp [Reader.endSession, hguard, hflags, hopen]

/-- Settles O47: the reader's own move at each end of its loops, by its flags. -/
theorem loopsFollowTheFlags : Obligations.LoopsFollowTheFlags := by
  refine fun s => ⟨fun hphase => ?_, fun first hphase => ?_, fun hphase => ?_⟩
  · have hmove : readerMove s.reader s.result = some s.reader.endSession := by simp only [readerMove, hphase]
    exact ⟨_, step_of_readerMove hmove, s.reader.endSession_cases⟩
  · by_cases hflags : s.reader.enabled = true ∧ (first = true ∨ s.reader.retry = true)
    · have hmove : readerMove s.reader s.result =
          some ((s.reader.emit (.opened s.reader.openParams)).goto .opening) := by
        simp only [readerMove, hphase]
        exact if_pos (by simpa using hflags)
      exact ⟨_, step_of_readerMove hmove, fun _ => ⟨rfl, rfl⟩, fun hno => absurd hflags hno⟩
    · have hmove : readerMove s.reader s.result = some (s.reader.goto (.stopped .normal)) := by
        simp only [readerMove, hphase]
        exact if_neg (by simpa using hflags)
      exact ⟨_, step_of_readerMove hmove, fun hyes => absurd hyes hflags, fun _ => ⟨rfl, rfl⟩⟩
  · cases henabled : s.reader.enabled with
    | true =>
      have hmove : readerMove s.reader s.result = some ((s.reader.emit (.read 25)).goto .reading) := by
        simp only [readerMove, hphase, henabled, if_true, Config.frameLen]
      exact ⟨_, step_of_readerMove hmove, fun _ => ⟨rfl, rfl⟩, nofun⟩
    | false =>
      have hmove : readerMove s.reader s.result = some (s.reader.goto .closing) := by
        simp only [readerMove, hphase, henabled, Bool.false_eq_true, if_false]
      exact ⟨_, step_of_readerMove hmove, nofun, fun _ => ⟨rfl, rfl⟩⟩

/-! ### The events of the host contract -/

/-- Settles O48: each event answers the call the reader waits on, and a flip of `enabled` answers none. -/
theorem hostEventsMoveTheReader : Obligations.HostEventsMoveTheReader := by
  intro s e rest ht hi
  refine ⟨?_, ?_, ?_, ?_, ?_, ?_⟩
  · rintro rfl hphase
    exact step_of_awaited_event hphase rfl ht hi (by simp only [readerEvent, hphase]; rfl)
  · rintro rfl hphase
    exact step_of_awaited_event hphase rfl ht hi (by simp only [readerEvent, hphase]; rfl)
  · rintro rfl hphase
    exact step_of_awaited_event hphase rfl ht hi (by simp only [readerEvent, hphase]; rfl)
  · rintro rfl hphase
    exact step_of_awaited_event hphase rfl ht hi (by simp only [readerEvent, hphase]; rfl)
  · rintro rfl hphase
    exact step_of_awaited_event hphase rfl ht hi (by simp only [readerEvent, hphase]; rfl)
  · rintro b rfl hr
    exact step_of_event hr ht hi (by simp only [readerEvent]; rfl)

/-- The ports a reader presents at its construction decode to CONFIG of its channel count (44_host_frame_reader.md
R171). -/
theorem exists_configInput {p : Params} {n : Option Int} (hw : WellFormed p (.config n)) :
    ∃ c, configInput p n = some (.command c) ∧ decodePorts p c = .instr (.config n) := by
  obtain ⟨c, hc⟩ := Option.isSome_iff_exists.mp (encodePorts_isSome p (.config n))
  exact ⟨c, by rw [configInput, if_pos hw, hc]; rfl, decodePorts_encodePorts hw hc⟩

/-- A reader starts where none runs (44_host_frame_reader.md R171). -/
theorem readerEvent_start (p : Params) (c : ReaderConfig) (h : r.phase = .absent ∨ ∃ why, r.phase = .stopped why) :
    readerEvent p (.start c) r = (configInput p c.nChans).map fun i => (r.start c, [i]) := by
  rcases h with h | ⟨why, h⟩ <;> simp only [readerEvent, h]

/-- An omitted setting takes its default, another is as given. -/
theorem getD_cases {α : Type} (o : Option α) (default : α) :
    (∀ x, o = some x → o.getD default = x) ∧ (o = none → o.getD default = default) := by
  cases o <;> simp

/-- Settles O49: a start is an event a reader that does not run waits for, and the answer to the CONFIG it presents moves
it on. -/
theorem constructionPresentsConfig : Obligations.ConstructionPresentsConfig := by
  refine fun s => ⟨fun c rest ht hphase hi hw => ?_, fun hphase hresult => ?_, fun lo hi v hphase hresult => ?_⟩
  · have hwaits : s.reader.phase.waits = true := by
      rcases hphase with hphase | ⟨why, hphase⟩
      · rw [hphase]; rfl
      · rw [hphase]; rfl
    obtain ⟨p, hp, hd⟩ := exists_configInput hw
    have hevent : readerEvent s.params (.start c) s.reader = some (s.reader.start c, [.command p]) := by
      rw [readerEvent_start _ _ hphase, hp]
      rfl
    obtain ⟨henabled, henabled'⟩ := getD_cases c.enabled true
    obtain ⟨hretry, hretry'⟩ := getD_cases c.retry true
    obtain ⟨htimeout, htimeout'⟩ := getD_cases c.timeout 1
    exact ⟨_, p, step_of_awaited_event rfl hwaits ht hi hevent, rfl, hd, rfl, rfl, rfl, rfl, rfl, henabled, henabled', hretry,
      hretry', htimeout, htimeout', rfl, rfl, rfl⟩
  · exact step_of_readerMove (r := s.reader.goto (.outerTop true)) (by simp only [readerMove, hphase, hresult])
  · exact step_of_readerMove (r := s.reader.goto (.stopped .configError)) (by simp only [readerMove, hphase, hresult])

end Sys2Proof.Machine
end
